-- ==== Sys2Proof/Word.lean ====
section
/-! DEFINITION. The word types of the Herkar machine and their plainest arithmetic (00_scope.md, R3). -/

namespace Sys2Proof

/-- A 64-bit scalar value (R25). -/
abbrev U64 := BitVec 64

/-- A byte of memory (R3). -/
abbrev Byte := BitVec 8

/-- Quotient rounded up, the bracket of the charges of R127. -/
def ceilDiv (a b : Nat) : Nat := (a + b - 1) / b

/-- `n` bits of `w` from bit `lo` upwards (R3 writes them `[lo+n-1:lo]`). -/
def bits (w lo n : Nat) : Nat := w / 2 ^ lo % 2 ^ n

end Sys2Proof
end

