-- ==== Sys2Proof/Config.lean ====
section
/-! DEFINITION. What the spec leaves open and no step of the model fixes: opaque constants, so that no proof can see their values. -/

namespace Sys2Proof

namespace Config

/-- DESIGN CHOICE (log entry 6): a byte that a page walk reads from a physical address outside installed memory; the spec
gives table entries no check against installed memory (R163 checks leaves only). -/
opaque absentByte : Nat → Byte

/-- DESIGN CHOICE (log entry 7): whether an access uses the cached translation instead of a fresh walk, decided per access
(R165); the arguments are the free-value counter and the virtual page. -/
opaque usesCached : Nat → Nat → Bool

/-- DESIGN CHOICE (log entry 7): whether a walk starts from a cached table entry instead of the entries in memory (R164, R165); the
arguments are the free-value counter and the entry's key. -/
opaque usesCachedTable : Nat → Nat → Bool

/-- DESIGN CHOICE (log entry 7): whether a fetch returns the cached word instead of the stored one (R153). -/
opaque usesCachedWord : Nat → Nat → Bool

/-- DESIGN CHOICE (log entry 8): the 64-bit name a die draws from its random source at reset (R263); the arguments are the
draw's number and the die's place. -/
opaque dieName : Nat → Nat → U64

/-- DESIGN CHOICE (log entry 8): the key that SETINB returns (R278, R281). -/
opaque regionKey : Nat → BitVec 32

/-- DESIGN CHOICE (log entry 9): byte `i` of the 64-byte SHAKE256 digest of a message (FIPS 202, named by R268 and R275 and
not restated by the spec). -/
opaque shake256 : List Byte → Nat → Byte

/-- DESIGN CHOICE (log entry 9): byte `i` of the device's public key (R273, R275), for the key pair drawn at number `k`. -/
opaque publicKey : Nat → Nat → Byte

/-- DESIGN CHOICE (log entry 9): byte `i` of the device key's signature over a digest (R275). -/
opaque signature : Nat → List Byte → Nat → Byte

/-- DESIGN CHOICE (log entry 9): byte `i` of the device identifier fixed at manufacture (R275). -/
opaque deviceId : Nat → Byte

/-- DESIGN CHOICE (log entry 8): the MAC address of Ethernet port `k` (R266). -/
opaque macAddress : Nat → BitVec 48

/-- DESIGN CHOICE (log entry 10): byte `i` that a peer device returns for a read through a network window (R167); the first
argument is the free-value counter. -/
opaque peerByte : Nat → Nat → Byte

/-- DESIGN CHOICE (log entry 10): the old value that a peer device returns for an atomic through a network window (R167). -/
opaque peerAtomic : Nat → U64

/-- DESIGN CHOICE (log entry 10): byte `i` that a copy reads from a scratchpad that EXIT has discarded (R205, R337 give no
value); the first argument is the free-value counter. -/
opaque lostByte : Nat → Nat → Byte

/-- DESIGN CHOICE (log entry 26): the grant in amperes that the power arbiter gives a die, before the conditions of R283 cut
it; the arguments are the interval, the die and its request in tenths of an ampere. -/
opaque powerGrant : Nat → Nat → Nat → Nat

/-- DESIGN CHOICE (log entry 35): whether a unit fails the self-test of step 5 of boot (R269, R271); the arguments are the count of
resets and the unit's key. A fault of the hardware is no function of the program. -/
opaque selfTestFails : Nat → Nat → Bool

/-- DESIGN CHOICE (log entry 35): whether a lane of a UCIe module fails its training at step 3 of boot (R261, R271); the arguments are
the count of resets and the lane's key. -/
opaque laneFails : Nat → Nat → Bool

/-- DESIGN CHOICE (log entry 35): how many lanes of a UCIe module its redundant lanes can replace (R261, R271 give no figure). -/
opaque redundantLanes : Nat

/-- DESIGN CHOICE (log entry 40): how many rows the post-package repair of a memory die's HBM4 stack can replace (R19, R271 give no
figure). -/
opaque stackRepairs : Nat → Nat

/-- DESIGN CHOICE (log entry 40): the row of an HBM4 stack that holds a stack address (R156: the mapping affects timing only). -/
opaque stackRow : Nat → BitVec 40

/-- DESIGN CHOICE (log entry 35): whether the wear record that step 2 of boot reads fails its digest (R272); the argument is the count
of resets. -/
opaque recordFails : Nat → Bool

/-- DESIGN CHOICE (log entry 9): byte `i` of the key digest held in fuses (R268). -/
opaque fuseDigest : Nat → Byte

/-- DESIGN CHOICE (log entry 9): whether an ML-DSA-65 signature verifies (FIPS 204, named by R268 and not restated): the public key,
the digest that was signed, the signature. -/
opaque verifies : List Byte → List Byte → List Byte → Bool

/-- DESIGN CHOICE (log entry 9): Ocsia's endorsement of the device public key with a number (R275 gives no layout). -/
opaque endorsement : Nat → List Byte

/-- DESIGN CHOICE (log entry 36): the level-0 table that boot writes into the address-space table entry of ASID 0, in units of 16
KiB (R269, step 7, gives no value); the argument is the count of resets. -/
opaque bootTable : Nat → BitVec 32

/-- DESIGN CHOICE (log entry 34): EVAL of an ECC trap for an accumulator or state row, for which R223 and R253 give no value; the
argument is the free-value counter. -/
opaque rowError : Nat → U64

/-- DESIGN CHOICE (log entry 30): the sending rate of a queue pair after a congestion notification packet (R277); the
arguments are the free-value counter and the rate before. -/
opaque reducedRate : Nat → Nat → Nat

/-- DESIGN CHOICE (log entry 31): the tokens that one fill event adds to a bucket of rate `r` (R191 gives the rate per 256
cycles, the model has no cycles); the arguments are the free-value counter and the rate. -/
opaque tokenFill : Nat → Nat → Nat

/-- DESIGN CHOICE (log entry 32): how many of the two comparisons of a pair-lane check disagree (R58, R59): 0 none, 1 the
first only, 2 or more both; the argument is the free-value counter. A fault of the hardware is no function of the program. -/
opaque dualMismatch : Nat → Nat

/-- DESIGN CHOICE (log entry 8): the local queue pair that QPCONN picks among the free ones (R281). -/
opaque queuePairPick : Nat → Nat

/-- DESIGN CHOICE (log entry 55): whether a sector lies in the unit of L1 that moves to another use (R73 and R148 name units of 8 banks and
no map from lines to units); the arguments are the free-value counter, and the sector with the unit's number. -/
opaque inUnit : Nat → Nat → Bool

end Config

end Sys2Proof
end

