-- ==== Sys2Proof/Syntax.lean ====
section
/-! DEFINITION. The rows of spec/opcode_table.json as syntax: 169 encoded words and 96 steps of the machine that no word encodes. -/

namespace Sys2Proof

/-- Where a soft error strikes (R253): the unit's code, and for code 4 whether it is the HBM4 stack, not an L2 bank. -/
structure ErrorUnit where
  code : BitVec 3
  stack : BitVec 1
  deriving DecidableEq, Repr

/-- What a peer's inbound request names (R278): its queue pair and its key. -/
structure PeerAccess where
  qp : BitVec 13
  key : BitVec 32
  deriving DecidableEq, Repr

/-- A step of an inbound WRITE (R278): on a queue pair a message arrives with its key (`store` 0), or one part of the oldest message is
stored. -/
structure PeerWrite where
  qp : BitVec 13
  store : BitVec 1
  part : BitVec 32
  key : BitVec 32
  deriving DecidableEq, Repr

/-- A management command's code and arguments (R280). -/
structure CommandWords where
  code : U64
  a0 : U64
  a1 : U64
  a2 : U64
  a3 : U64
  deriving DecidableEq, Repr

/-- What a firmware image holds besides its version and entry (R268): the public key, the signature and the body. -/
structure ImageParts where
  key : List Byte
  sig : List Byte
  body : List Byte
  deriving DecidableEq, Repr

/-- One constructor per row of the opcode table: the rows with arguments in the table's order, then the rows without. A word's arguments are its fields under the table's letters. The rows that have no encoding (95_what_each_step_holds.md) carry what picks the unit that steps: a die, a cluster, a lane, a queue place. -/
inductive Instr where
  /-- ADD (R325). Adds two scalar registers modulo 2^64 into sd. -/
  | add (d : BitVec 5) (a : BitVec 5) (b : BitVec 5)
  /-- SUB (R387). Subtracts sb from sa modulo 2^64 into sd. -/
  | sub (d : BitVec 5) (a : BitVec 5) (b : BitVec 5)
  /-- MUL (R370). Writes the low 64 bits of the product of sa and sb. -/
  | mul (d : BitVec 5) (a : BitVec 5) (b : BitVec 5)
  /-- MULH (R370). Writes the high 64 bits of the unsigned product. -/
  | mulh (d : BitVec 5) (a : BitVec 5) (b : BitVec 5)
  /-- MULHS (R370). Writes the high 64 bits of the signed product. -/
  | mulhs (d : BitVec 5) (a : BitVec 5) (b : BitVec 5)
  /-- DIV (R356). Writes the unsigned quotient of sa by sb, with the fixed result for a zero divisor. -/
  | div (d : BitVec 5) (a : BitVec 5) (b : BitVec 5)
  /-- DIVS (R356). Writes the signed quotient rounded toward zero, with the fixed corner cases. -/
  | divs (d : BitVec 5) (a : BitVec 5) (b : BitVec 5)
  /-- REM (R379). Writes the unsigned remainder of sa by sb. -/
  | rem (d : BitVec 5) (a : BitVec 5) (b : BitVec 5)
  /-- REMS (R379). Writes the signed remainder, with the dividend's sign. -/
  | rems (d : BitVec 5) (a : BitVec 5) (b : BitVec 5)
  /-- AND (R329). Writes the bitwise AND of sa and sb. -/
  | andS (d : BitVec 5) (a : BitVec 5) (b : BitVec 5)
  /-- OR (R373). Writes the bitwise OR of sa and sb. -/
  | orS (d : BitVec 5) (a : BitVec 5) (b : BitVec 5)
  /-- XOR (R455). Writes the bitwise XOR of sa and sb. -/
  | xorS (d : BitVec 5) (a : BitVec 5) (b : BitVec 5)
  /-- SHL (R381). Shifts sa left by sb modulo 64. -/
  | shl (d : BitVec 5) (a : BitVec 5) (b : BitVec 5)
  /-- SHR (R381). Shifts sa right logically by sb modulo 64. -/
  | shr (d : BitVec 5) (a : BitVec 5) (b : BitVec 5)
  /-- SAR (R381). Shifts sa right arithmetically by sb modulo 64. -/
  | sar (d : BitVec 5) (a : BitVec 5) (b : BitVec 5)
  /-- SLT (R382). Writes 1 when sa is below sb unsigned, else 0. -/
  | slt (d : BitVec 5) (a : BitVec 5) (b : BitVec 5)
  /-- SLTS (R382). Writes 1 when sa is below sb signed, else 0. -/
  | slts (d : BitVec 5) (a : BitVec 5) (b : BitVec 5)
  /-- MIN (R363). Writes the unsigned smaller of sa and sb. -/
  | minU (d : BitVec 5) (a : BitVec 5) (b : BitVec 5)
  /-- MINS (R363). Writes the signed smaller of sa and sb. -/
  | mins (d : BitVec 5) (a : BitVec 5) (b : BitVec 5)
  /-- MAX (R363). Writes the unsigned larger of sa and sb. -/
  | maxU (d : BitVec 5) (a : BitVec 5) (b : BitVec 5)
  /-- MAXS (R363). Writes the signed larger of sa and sb. -/
  | maxs (d : BitVec 5) (a : BitVec 5) (b : BitVec 5)
  /-- POPC (R374). Writes the count of set bits of sa. -/
  | popc (d : BitVec 5) (a : BitVec 5)
  /-- CLZ (R349). Writes the count of leading zero bits of sa. -/
  | clz (d : BitVec 5) (a : BitVec 5)
  /-- ADDI (R325). Adds a sign-extended 14-bit immediate to sa. -/
  | addi (d : BitVec 5) (a : BitVec 5) (i : BitVec 14)
  /-- ANDI (R329). ANDs sa with a sign-extended immediate. -/
  | andi (d : BitVec 5) (a : BitVec 5) (i : BitVec 14)
  /-- ORI (R373). ORs sa with a sign-extended immediate. -/
  | ori (d : BitVec 5) (a : BitVec 5) (i : BitVec 14)
  /-- XORI (R455). XORs sa with a sign-extended immediate. -/
  | xori (d : BitVec 5) (a : BitVec 5) (i : BitVec 14)
  /-- SHLI (R381). Shifts sa left by an immediate modulo 64. -/
  | shli (d : BitVec 5) (a : BitVec 5) (i : BitVec 14)
  /-- SHRI (R381). Shifts sa right logically by an immediate modulo 64. -/
  | shri (d : BitVec 5) (a : BitVec 5) (i : BitVec 14)
  /-- SARI (R381). Shifts sa right arithmetically by an immediate modulo 64. -/
  | sari (d : BitVec 5) (a : BitVec 5) (i : BitVec 14)
  /-- SLTI (R382). Writes 1 when sa is below a sign-extended immediate, signed. -/
  | slti (d : BitVec 5) (a : BitVec 5) (i : BitVec 14)
  /-- LI (R298). Sets sd to a sign-extended 19-bit immediate. -/
  | li (d : BitVec 5) (i : BitVec 19)
  /-- LIS (R298). Shifts sd left 19 bits and ORs in an unsigned 19-bit immediate. -/
  | lis (d : BitVec 5) (i : BitVec 19)
  /-- LD (R360). Issues a scalar load of 1 to 8 bytes whose data lands in sd later. -/
  | ld (d : BitVec 5) (a : BitVec 5) (z : BitVec 2) (s : BitVec 1) (o : BitVec 11)
  /-- ST (R385). Stores the low bytes of sd at sa plus an offset through the store queue. -/
  | st (d : BitVec 5) (a : BitVec 5) (z : BitVec 2) (o : BitVec 11)
  /-- AMO (R327). Sends a 64-bit atomic bank operation at a scope and order, with the old value returned later. -/
  | amo (d : BitVec 5) (a : BitVec 5) (b : BitVec 5) (o : BitVec 4) (c : BitVec 3) (r : BitVec 2)
  /-- CRRD (R353). Reads a control register into sd, waiting first for the registers of R354. -/
  | crrd (d : BitVec 5) (c : BitVec 12)
  /-- CRWR (R353). Writes sa to the fields of a control register that has no row of its own, under its access codes. -/
  | crwr (a : BitVec 5) (c : BitVec 12)
  /-- B (R330). Branches by a signed 24-bit word offset. -/
  | br (o : BitVec 24)
  /-- BC (R334). Branches when a condition holds on two scalar registers. -/
  | bc (c : BitVec 3) (a : BitVec 5) (b : BitVec 5) (o : BitVec 11)
  /-- CALL (R348). Writes the return address to s31 and branches. -/
  | call (o : BitVec 24)
  /-- JR (R301). Jumps to the address in sa, optionally writing a link to sd. -/
  | jr (d : BitVec 5) (a : BitVec 5)
  /-- BRANY (R50). After quiescence, branches when any bit of mk below VL is set. -/
  | brany (m : BitVec 3) (o : BitVec 21)
  /-- BRALL (R50). After quiescence, branches when every bit of mk below VL is set. -/
  | brall (m : BitVec 3) (o : BitVec 21)
  /-- BRNONE (R50). After quiescence, branches when no bit of mk below VL is set. -/
  | brnone (m : BitVec 3) (o : BitVec 21)
  /-- TRAP (R391). Raises SWTRAP with the code in EVAL. -/
  | trapS (c : BitVec 24)
  /-- DBGBRK (R355). Raises BRK, or performs a wave-stop when debug is enabled. -/
  | dbgbrk (c : BitVec 24)
  /-- TLBINV_PAGE (R390). Starts invalidation of the translations of one page of one ASID. -/
  | tlbinvPage (a : BitVec 5) (b : BitVec 5)
  /-- TLBINV_ASID (R390). Starts invalidation of every non-global translation of one ASID. -/
  | tlbinvAsid (b : BitVec 5)
  /-- WAITADDR (R449). Starts waiting until the doubleword at sa differs from sb. -/
  | waitaddr (d : BitVec 5) (a : BitVec 5) (b : BitVec 5)
  /-- FENCE (R179). Waits for the queue and quiescence, then orders each path at a scope by kind. -/
  | fence (s : BitVec 3) (k : BitVec 2)
  /-- XFENCE (R180). Waits for the queue and quiescence, then orders from-paths before to-paths at a scope. -/
  | xfence (s : BitVec 3) (f : BitVec 5) (t : BitVec 5)
  /-- VSETCFG (R435). Queues a change of NREG, EW and BLK that releases every register when it takes effect. -/
  | vsetcfg (n : BitVec 2) (e : BitVec 2) (b : BitVec 3)
  /-- VSETVL (R436). Queues a vector-length request, optionally growing storage, granting VL in whole blocks. -/
  | vsetvl (d : BitVec 5) (a : BitVec 5) (g : BitVec 1)
  /-- PSETVL (R375). Writes this die's share of an application length and its offset to PVOFF. -/
  | psetvl (d : BitVec 5) (a : BitVec 5)
  /-- REGGIVE (R378). Queues the return of the top n registers and their quota to the team's free quota. -/
  | reggive (n : BitVec 6)
  /-- REGCLAIM (R377). Queues a claim of n registers of quota from the team's free quota. -/
  | regclaim (n : BitVec 6)
  /-- VFETCH (R412). Queues a lockstep fetch of the block at a word offset, reserving its budget. -/
  | vfetch (m : BitVec 1) (o : BitVec 22)
  /-- VFETCH_REG (R412). Queues a lockstep fetch of the block at the address in sa, reserving its budget. -/
  | vfetchReg (m : BitVec 1) (a : BitVec 5)
  /-- VCATCH (R400). Queues a rejoin that waits for quiescence, counts parked VPs and queues their catch fetches. -/
  | vcatch (d : BitVec 5)
  /-- ABEGIN (R322). Block header word; reached as an instruction it raises the AIB trap. -/
  | abegin (l : BitVec 6) (p : BitVec 6) (i : BitVec 1) (c : BitVec 1)
  /-- THFETCH (R389). Records a target at a word offset as the VP's next block. -/
  | thfetch (m : BitVec 1) (o : BitVec 22)
  /-- THFETCH_REG (R389). Records a target formed from a scalar base and a per-VP source as the VP's next block. -/
  | thfetchReg (m : BitVec 1) (b : BitVec 5) (s : BitVec 8)
  /-- VPSTOP (R428). Ends the block for each active VP, which becomes idle. -/
  | vpstop (m : BitVec 1)
  /-- VELECT (R409). Queues a read of the first element selected by mk into sd. -/
  | velect (d : BitVec 5) (k : BitVec 3) (v : BitVec 6)
  /-- VELECT_IDX (R409). Queues a read of the index of the first element selected by mk into sd. -/
  | velectIdx (d : BitVec 5) (k : BitVec 3)
  /-- VBALLOT (R399). Queues a copy of one 64-bit word of a mask register into sd. -/
  | vballot (d : BitVec 5) (k : BitVec 3) (w : BitVec 7)
  /-- MOP (R367). Queues a mask combination over VL, optionally returning the count of set bits. -/
  | mop (d : BitVec 3) (a : BitVec 3) (b : BitVec 3) (f : BitVec 3) (s : BitVec 5)
  /-- VXSEED (R445). After earlier queue entries take effect, pushes sa into the seed queue for VP 0. -/
  | vxseed (a : BitVec 5)
  /-- VXTAKE (R447). Pops the oldest take-queue entry into sd, blocking while it is empty. -/
  | vxtake (d : BitVec 5)
  /-- VADD_I (R393). Adds integer elements modulo 2^EW. -/
  | vaddI (m : BitVec 1) (d : BitVec 6) (w : BitVec 1) (a : BitVec 8) (b : BitVec 8)
  /-- VSUB_I (R443). Subtracts integer elements modulo 2^EW. -/
  | vsubI (m : BitVec 1) (d : BitVec 6) (w : BitVec 1) (a : BitVec 8) (b : BitVec 8)
  /-- VMUL_I (R423). Multiplies integer elements modulo 2^EW. -/
  | vmulI (m : BitVec 1) (d : BitVec 6) (w : BitVec 1) (a : BitVec 8) (b : BitVec 8)
  /-- VMAC_I (R419). Adds the integer product of two sources to vd modulo 2^EW. -/
  | vmacI (m : BitVec 1) (d : BitVec 6) (w : BitVec 1) (a : BitVec 8) (b : BitVec 8)
  /-- VMIN_I (R421). Writes the unsigned minimum of two elements. -/
  | vminI (m : BitVec 1) (d : BitVec 6) (w : BitVec 1) (a : BitVec 8) (b : BitVec 8)
  /-- VMIN_IS (R421). Writes the signed minimum of two elements. -/
  | vminIs (m : BitVec 1) (d : BitVec 6) (w : BitVec 1) (a : BitVec 8) (b : BitVec 8)
  /-- VMAX_I (R420). Writes the unsigned maximum of two elements. -/
  | vmaxI (m : BitVec 1) (d : BitVec 6) (w : BitVec 1) (a : BitVec 8) (b : BitVec 8)
  /-- VMAX_IS (R420). Writes the signed maximum of two elements. -/
  | vmaxIs (m : BitVec 1) (d : BitVec 6) (w : BitVec 1) (a : BitVec 8) (b : BitVec 8)
  /-- VAND (R398). Writes the bitwise AND of two elements. -/
  | vand (m : BitVec 1) (d : BitVec 6) (w : BitVec 1) (a : BitVec 8) (b : BitVec 8)
  /-- VOR (R426). Writes the bitwise OR of two elements. -/
  | vor (m : BitVec 1) (d : BitVec 6) (w : BitVec 1) (a : BitVec 8) (b : BitVec 8)
  /-- VXOR (R444). Writes the bitwise XOR of two elements. -/
  | vxor (m : BitVec 1) (d : BitVec 6) (w : BitVec 1) (a : BitVec 8) (b : BitVec 8)
  /-- VSHL (R437). Shifts elements left by the second operand modulo EW. -/
  | vshl (m : BitVec 1) (d : BitVec 6) (w : BitVec 1) (a : BitVec 8) (b : BitVec 8)
  /-- VSHR (R438). Shifts elements right logically. -/
  | vshr (m : BitVec 1) (d : BitVec 6) (w : BitVec 1) (a : BitVec 8) (b : BitVec 8)
  /-- VSHR_A (R438). Shifts elements right arithmetically. -/
  | vshrA (m : BitVec 1) (d : BitVec 6) (w : BitVec 1) (a : BitVec 8) (b : BitVec 8)
  /-- VCMP_I (R401). Writes an integer comparison of two elements to a mask bit. -/
  | vcmpI (m : BitVec 1) (d : BitVec 3) (c : BitVec 3) (a : BitVec 8) (b : BitVec 8)
  /-- VSEL (R434). Selects between two elements by the bit of m0. -/
  | vsel (d : BitVec 6) (w : BitVec 1) (a : BitVec 8) (b : BitVec 8)
  /-- VADDI_I (R393). Adds a sign-extended 8-bit immediate to integer elements. -/
  | vaddiI (m : BitVec 1) (d : BitVec 6) (w : BitVec 1) (a : BitVec 8) (i : BitVec 8)
  /-- VANDI (R398). ANDs elements with a sign-extended immediate. -/
  | vandi (m : BitVec 1) (d : BitVec 6) (w : BitVec 1) (a : BitVec 8) (i : BitVec 8)
  /-- VSHLI (R437). Shifts elements left by an immediate modulo EW. -/
  | vshli (m : BitVec 1) (d : BitVec 6) (w : BitVec 1) (a : BitVec 8) (i : BitVec 8)
  /-- VSHRI (R438). Shifts elements right logically by an immediate. -/
  | vshri (m : BitVec 1) (d : BitVec 6) (w : BitVec 1) (a : BitVec 8) (i : BitVec 8)
  /-- VSHRI_A (R438). Shifts elements right arithmetically by an immediate. -/
  | vshriA (m : BitVec 1) (d : BitVec 6) (w : BitVec 1) (a : BitVec 8) (i : BitVec 8)
  /-- VCMPI_I (R401). Writes an integer comparison against an immediate to a mask bit. -/
  | vcmpiI (m : BitVec 1) (d : BitVec 3) (c : BitVec 3) (a : BitVec 8) (i : BitVec 8)
  /-- VMOVI (R422). Writes a sign-extended immediate to each active element. -/
  | vmovi (m : BitVec 1) (d : BitVec 6) (w : BitVec 1) (i : BitVec 8)
  /-- VMOV (R422). Copies a source operand into each active element. -/
  | vmov (m : BitVec 1) (d : BitVec 6) (w : BitVec 1) (a : BitVec 8)
  /-- VIOTA (R416). Writes each active VP's element index. -/
  | viota (m : BitVec 1) (d : BitVec 6) (w : BitVec 1)
  /-- VXSEND (R446). Pushes each active VP's element to the next VP's cross-element queue. -/
  | vxsend (m : BitVec 1) (a : BitVec 8)
  /-- VPERM (R427). Permutes elements of the lockstep group by index. -/
  | vperm (m : BitVec 1) (d : BitVec 6) (w : BitVec 1) (a : BitVec 8) (b : BitVec 8)
  /-- VCOMPRESS (R402). Packs selected elements into the lowest executing VPs, zero-filling the rest. -/
  | vcompress (m : BitVec 1) (d : BitVec 6) (a : BitVec 8)
  /-- VRED (R430). Reduces active elements by a fixed tree and writes the result to each. -/
  | vred (m : BitVec 1) (d : BitVec 6) (a : BitVec 8) (c : BitVec 8)
  /-- VSCAN (R432). Writes the sequential inclusive scan of active elements. -/
  | vscan (m : BitVec 1) (d : BitVec 6) (a : BitVec 8) (c : BitVec 8)
  /-- VNZSCAN (R424). Lists indices of non-zero active elements and sets NZCNT. -/
  | vnzscan (m : BitVec 1) (d : BitVec 6) (a : BitVec 8) (f : BitVec 1)
  /-- BMAND (R341). Writes the inclusive prefix count of set bits of the AND of two bitmaps. -/
  | bmand (m : BitVec 1) (d : BitVec 6) (w : BitVec 1) (a : BitVec 8) (b : BitVec 8)
  /-- BMPOS (R342). Writes the position of the set bit of a given rank in the group's bitmap. -/
  | bmpos (m : BitVec 1) (d : BitVec 6) (w : BitVec 1) (a : BitVec 8) (b : BitVec 8)
  /-- VADD_F32 (R393). Adds FP32 elements with one rounding by FRM. -/
  | vaddF32 (m : BitVec 1) (d : BitVec 6) (w : BitVec 1) (a : BitVec 8) (b : BitVec 8)
  /-- VSUB_F32 (R443). Subtracts FP32 elements with one rounding. -/
  | vsubF32 (m : BitVec 1) (d : BitVec 6) (w : BitVec 1) (a : BitVec 8) (b : BitVec 8)
  /-- VMUL_F32 (R423). Multiplies FP32 elements with one rounding. -/
  | vmulF32 (m : BitVec 1) (d : BitVec 6) (w : BitVec 1) (a : BitVec 8) (b : BitVec 8)
  /-- VFMA_F32 (R414). Adds the exact FP32 product to vd with one rounding. -/
  | vfmaF32 (m : BitVec 1) (d : BitVec 6) (w : BitVec 1) (a : BitVec 8) (b : BitVec 8)
  /-- VFMS_F32 (R414). Subtracts the exact FP32 product from vd with one rounding. -/
  | vfmsF32 (m : BitVec 1) (d : BitVec 6) (w : BitVec 1) (a : BitVec 8) (b : BitVec 8)
  /-- VDIV_F32 (R404). Divides FP32 elements with one rounding. -/
  | vdivF32 (m : BitVec 1) (d : BitVec 6) (w : BitVec 1) (a : BitVec 8) (b : BitVec 8)
  /-- VSQRT_F32 (R441). Takes the FP32 square root with one rounding. -/
  | vsqrtF32 (m : BitVec 1) (d : BitVec 6) (w : BitVec 1) (a : BitVec 8)
  /-- VMIN_F32 (R421). Writes minimumNumber of two FP32 elements. -/
  | vminF32 (m : BitVec 1) (d : BitVec 6) (w : BitVec 1) (a : BitVec 8) (b : BitVec 8)
  /-- VMAX_F32 (R420). Writes maximumNumber of two FP32 elements. -/
  | vmaxF32 (m : BitVec 1) (d : BitVec 6) (w : BitVec 1) (a : BitVec 8) (b : BitVec 8)
  /-- VCMP_F32 (R401). Writes an FP32 comparison to a mask bit. -/
  | vcmpF32 (m : BitVec 1) (d : BitVec 3) (c : BitVec 3) (a : BitVec 8) (b : BitVec 8)
  /-- VEXP2 (R411). Computes 2^x in FP32 by the fixed algorithm of R122. -/
  | vexp2 (m : BitVec 1) (d : BitVec 6) (w : BitVec 1) (a : BitVec 8)
  /-- VRCP (R429). Approximates 1/x in FP32 by the fixed algorithm of R123. -/
  | vrcp (m : BitVec 1) (d : BitVec 6) (w : BitVec 1) (a : BitVec 8)
  /-- VADDC (R394). Writes the rounded FP32 sum to vd and its exact error to vd+1. -/
  | vaddc (m : BitVec 1) (d : BitVec 6) (w : BitVec 1) (a : BitVec 8) (b : BitVec 8)
  /-- VADD_F16 (R393). Adds FP16 elements with one rounding. -/
  | vaddF16 (m : BitVec 1) (d : BitVec 6) (w : BitVec 1) (a : BitVec 8) (b : BitVec 8)
  /-- VSUB_F16 (R443). Subtracts FP16 elements with one rounding. -/
  | vsubF16 (m : BitVec 1) (d : BitVec 6) (w : BitVec 1) (a : BitVec 8) (b : BitVec 8)
  /-- VMUL_F16 (R423). Multiplies FP16 elements with one rounding. -/
  | vmulF16 (m : BitVec 1) (d : BitVec 6) (w : BitVec 1) (a : BitVec 8) (b : BitVec 8)
  /-- VFMA_F16 (R414). Fused multiply-add of FP16 elements into vd. -/
  | vfmaF16 (m : BitVec 1) (d : BitVec 6) (w : BitVec 1) (a : BitVec 8) (b : BitVec 8)
  /-- VMIN_F16 (R421). Writes minimumNumber of two FP16 elements. -/
  | vminF16 (m : BitVec 1) (d : BitVec 6) (w : BitVec 1) (a : BitVec 8) (b : BitVec 8)
  /-- VMAX_F16 (R420). Writes maximumNumber of two FP16 elements. -/
  | vmaxF16 (m : BitVec 1) (d : BitVec 6) (w : BitVec 1) (a : BitVec 8) (b : BitVec 8)
  /-- VCMP_F16 (R401). Writes an FP16 comparison to a mask bit. -/
  | vcmpF16 (m : BitVec 1) (d : BitVec 3) (c : BitVec 3) (a : BitVec 8) (b : BitVec 8)
  /-- VADD_E8M7 (R393). Adds E8M7 elements with one rounding and subnormal flush. -/
  | vaddE8m7 (m : BitVec 1) (d : BitVec 6) (w : BitVec 1) (a : BitVec 8) (b : BitVec 8)
  /-- VSUB_E8M7 (R443). Subtracts E8M7 elements with one rounding. -/
  | vsubE8m7 (m : BitVec 1) (d : BitVec 6) (w : BitVec 1) (a : BitVec 8) (b : BitVec 8)
  /-- VMUL_E8M7 (R423). Multiplies E8M7 elements with one rounding. -/
  | vmulE8m7 (m : BitVec 1) (d : BitVec 6) (w : BitVec 1) (a : BitVec 8) (b : BitVec 8)
  /-- VFMA_E8M7 (R414). Fused multiply-add of E8M7 elements into vd. -/
  | vfmaE8m7 (m : BitVec 1) (d : BitVec 6) (w : BitVec 1) (a : BitVec 8) (b : BitVec 8)
  /-- VMIN_E8M7 (R421). Writes minimumNumber of two E8M7 elements. -/
  | vminE8m7 (m : BitVec 1) (d : BitVec 6) (w : BitVec 1) (a : BitVec 8) (b : BitVec 8)
  /-- VMAX_E8M7 (R420). Writes maximumNumber of two E8M7 elements. -/
  | vmaxE8m7 (m : BitVec 1) (d : BitVec 6) (w : BitVec 1) (a : BitVec 8) (b : BitVec 8)
  /-- VCMP_E8M7 (R401). Writes an E8M7 comparison to a mask bit. -/
  | vcmpE8m7 (m : BitVec 1) (d : BitVec 3) (c : BitVec 3) (a : BitVec 8) (b : BitVec 8)
  /-- VCVT (R403). Converts each active element between the formats named by two codes. -/
  | vcvt (m : BitVec 1) (d : BitVec 6) (w : BitVec 1) (a : BitVec 8) (t : BitVec 4) (s : BitVec 4)
  /-- VLD (R417). Loads a vector over VL in the control thread, or a VP-local element in a block. -/
  | vld (m : BitVec 1) (d : BitVec 6) (b : BitVec 5) (x : BitVec 6) (k : BitVec 1) (p : BitVec 2) (o : BitVec 2)
  /-- VST (R442). Stores a vector over VL, or a VP-local element in a block. -/
  | vst (m : BitVec 1) (d : BitVec 6) (l : BitVec 1) (b : BitVec 5) (x : BitVec 6) (k : BitVec 1) (p : BitVec 2) (o : BitVec 2)
  /-- VGATH (R415). Gathers elements from indexed addresses, each read independently. -/
  | vgath (m : BitVec 1) (d : BitVec 6) (b : BitVec 5) (x : BitVec 6) (k : BitVec 1) (p : BitVec 2) (o : BitVec 2)
  /-- VGATH_C (R415). Gathers elements, reading each distinct address once. -/
  | vgathC (m : BitVec 1) (d : BitVec 6) (b : BitVec 5) (x : BitVec 6) (k : BitVec 1) (p : BitVec 2) (o : BitVec 2)
  /-- VSCAT (R433). Scatters elements to indexed addresses on the GATH path. -/
  | vscat (m : BitVec 1) (d : BitVec 6) (l : BitVec 1) (b : BitVec 5) (x : BitVec 6) (k : BitVec 1) (p : BitVec 2) (o : BitVec 2)
  /-- VAMO (R396). Performs an atomic per element, over VL or VP-local, returning old values. -/
  | vamo (m : BitVec 1) (d : BitVec 6) (b : BitVec 5) (x : BitVec 6) (k : BitVec 1) (p : BitVec 2) (o : BitVec 2)
  /-- BKRED (R339). Applies a bank operation per element at the home bank, returning nothing. -/
  | bkred (m : BitVec 1) (d : BitVec 6) (b : BitVec 5) (x : BitVec 6) (k : BitVec 1) (p : BitVec 2) (o : BitVec 2)
  /-- WMLINK (R452). Queues the setting of a watermark link and makes it current. -/
  | wmlink (n : BitVec 3) (a : BitVec 5) (b : BitVec 5) (e : BitVec 2)
  /-- WMPUB (R453). Queues a release that raises a watermark word to max(word, index). -/
  | wmpub (a : BitVec 5) (b : BitVec 5)
  /-- BCOPY (R335). Checks and hands a bulk copy to the cluster's bulk copy engine. -/
  | bcopy (d : BitVec 5) (s : BitVec 5) (c : BitVec 5) (b : BitVec 5) (p : BitVec 2)
  /-- CMDB (R351). Reads a list of copy descriptors and enters them all in the bulk copy engine. -/
  | cmdb (a : BitVec 5) (b : BitVec 5)
  /-- BARINIT (R332). Atomically initialises a scratchpad barrier with EXPECT. -/
  | barinit (a : BitVec 5) (b : BitVec 5)
  /-- BARRIVE (R333). Queues an arrival marker that credits a barrier once it fires. -/
  | barrive (s : BitVec 3) (a : BitVec 5) (c : BitVec 16)
  /-- BWAIT (R347). Waits until a barrier's PHASE differs from ph. -/
  | bwait (a : BitVec 5) (p : BitVec 1)
  /-- WDQ (R451). Sends one request to the die's work distributor. -/
  | wdq (a : BitVec 5) (b : BitVec 5) (c : BitVec 5)
  /-- MMA (R220). Queues a dense matrix multiply-accumulate into a tile, with optional epilogue. -/
  | mma (t : BitVec 2) (a : BitVec 6) (b : BitVec 6) (f : BitVec 4) (r : BitVec 1) (e : BitVec 1)
  /-- MMAS (R225). Queues an N:M sparse matrix multiply-accumulate, optionally transposed. -/
  | mmas (t : BitVec 2) (a : BitVec 6) (b : BitVec 6) (f : BitVec 4) (r : BitVec 1) (e : BitVec 1) (p : BitVec 3) (x : BitVec 1)
  /-- MSCACC (R224). Queues a block-scaled accumulate of a partial-sum tile into a tile. -/
  | mscacc (d : BitVec 2) (s : BitVec 6) (g : BitVec 6) (f : BitVec 4) (r : BitVec 1) (p : BitVec 2) (z : BitVec 1)
  /-- MMOV_TILE_TO_REG (R365). Queues a copy of a tile column quarter into 16 registers. -/
  | mmovTileToReg (t : BitVec 2) (v : BitVec 6) (r : BitVec 1) (c : BitVec 2)
  /-- MMOV_REG_TO_TILE (R365). Queues a copy of 16 registers into a tile column quarter. -/
  | mmovRegToTile (t : BitVec 2) (v : BitVec 6) (r : BitVec 1) (c : BitVec 2)
  /-- MZERO (R371). Queues clearing of one tile's selected rows. -/
  | mzero (t : BitVec 2) (r : BitVec 1)
  /-- MZERO_ALL (R371). Queues clearing of the selected rows of all four tiles. -/
  | mzeroAll (r : BitVec 1)
  /-- MSAVE (R368). Queues a write of a whole tile to memory. -/
  | msave (t : BitVec 2) (a : BitVec 5) (p : BitVec 2)
  /-- MREST (R368). Queues a load of a whole tile from memory. -/
  | mrest (t : BitVec 2) (a : BitVec 5) (p : BitVec 2)
  /-- MEPI (R229). Captures the following words as the wave's epilogue program. -/
  | mepi (s : BitVec 2) (o : BitVec 6) (p : BitVec 6) (l : BitVec 4) (r : BitVec 1) (c : BitVec 1) (t : BitVec 2) (u : BitVec 1)
  /-- SPAWN (R383). Reads a launch header and queues its teams on the die, writing a status. -/
  | spawn (d : BitVec 5) (a : BitVec 5) (b : BitVec 5)
  /-- VSPAWN (R439). Offers one launch per active VP and writes the accepted mask. -/
  | vspawn (m : BitVec 1) (d : BitVec 3) (a : BitVec 8) (b : BitVec 8)
  /-- YIELD (R456). Saves the wave and leaves the cluster, resuming at sa or XPC. -/
  | yieldW (a : BitVec 5)
  /-- CONTSET (R352). Sets CIDX to choose the continuation entry. -/
  | contset (i : BitVec 4)
  /-- BTOPUP (R345). Moves ticks and sectors to a target wave, writing a status. -/
  | btopup (d : BitVec 5) (a : BitVec 5) (b : BitVec 5) (c : BitVec 5)
  /-- BTOPUP_Z (R346). Sends a pre-emption request to a target wave. -/
  | btopupZ (d : BitVec 5) (a : BitVec 5)
  /-- REPF (R307). Replays the following frame of words over staggered registers. -/
  | repf (c : BitVec 4) (s : BitVec 6) (l : BitVec 4)
  /-- LANEPWR_WRITE (R102). A write of LANEPWR powers quads up or down, keeping bits of quads that hold waves. -/
  | lanepwrWrite (a : BitVec 5)
  /-- TRAPVEC_WRITE (R234). A supervisor write of the die's trap handler address, applying to later trap entries. -/
  | trapvecWrite (a : BitVec 5)
  /-- TOKRATE_WRITE (R191). A write installs token rates for one tenant entry, replacing an entry when full. -/
  | tokrateWrite (a : BitVec 5)
  /-- TOKDEPTH_WRITE (R191). A write installs token depths for one tenant entry. -/
  | tokdepthWrite (a : BitVec 5)
  /-- FFLAGS_ACCESS (R116). A read or write of FFLAGS that first waits for the queue and quiescence. -/
  | fflagsAccess (wr : BitVec 1) (r : BitVec 5)
  /-- DBGCTL_WRITE (R256). A write of the wave's debug controls, refusing WMODE 3. -/
  | dbgctlWrite (a : BitVec 5)
  /-- QUAD_POWER_UP_READY (R102). 2 us after a power-up write, the quad accepts placements. -/
  | quadPowerUpReady (die : BitVec 4) (cl : BitVec 6) (q : BitVec 2)
  /-- EARLY_LOAD_SEND (R154). A queued vector load sends its requests early into the load buffers when conditions allow. -/
  | earlyLoadSend (k : BitVec 5)
  /-- THREAD_BLOCK_START (R128). A lane picks a frontier entry or the serial VP, checks and reserves W(k), and starts the block. -/
  | threadBlockStart (lane : BitVec 4)
  /-- BLOCK_COMPLETE (R32). A VP completes a block and moves to idle, thread or parked state. -/
  | blockComplete (vp : BitVec 13)
  /-- ENTRY_STARVATION_ISSUE (R45). A ready entry unchosen on a lane for 4,096 cycles is issued once ahead of priority order. -/
  | entryStarvationIssue (lane : BitVec 4) (k : BitVec 4)
  /-- QUEUE_BLOCK_SUSPEND (R44). An instruction blocked on a cross-element queue for 64 cycles suspends its entry on the lane. -/
  | queueBlockSuspend (lane : BitVec 4)
  /-- CROSS_ELEMENT_UNBLOCK (R52). A VP or control thread blocked on a cross-element queue resumes when an entry or room arrives. -/
  | crossElementUnblock (ctl : BitVec 1) (vp : BitVec 13)
  /-- REFILL (R93). A read of a spilled register is satisfied once its slot has been read back. -/
  | refill (v : BitVec 7)
  /-- DISPATCH (R203). The die's dispatcher considers resume lists and task queues by class and places what fits. -/
  | dispatch (die : BitVec 4)
  /-- LANE_STARVATION (R208). A wave unchosen on a lane or control processor for 4,096 cycles is chosen next. -/
  | laneStarvation (lane : BitVec 5)
  /-- AMO_REPLY (R327). The reply of a scalar or vector atomic arrives with the old value. -/
  | amoReply (k : BitVec 13)
  /-- VECTOR_LOAD_REPLY (R406). Data for vector load elements arrives in the load buffers or registers. -/
  | vectorLoadReply (k : BitVec 13)
  /-- ATOMIC_TIMEOUT (R167). A network-window atomic unanswered for 4 us completes with 0 and PAGE. -/
  | atomicTimeout (k : BitVec 13)
  /-- HOME_BANK_ACCESS (R158). A store, atomic or bank operation is applied at its home bank in coherence order. -/
  | homeBankAccess (k : BitVec 13)
  /-- PAGE_WALK_COMPLETE (R166). A translation walk ends, filling the TLB or delivering a fault to waiting accesses. -/
  | pageWalkComplete (va : BitVec 60)
  /-- L1_SECTOR_EXPIRY (R177). An L1 sector is dropped 4,096 cycles after it was filled. -/
  | l1SectorExpiry (die : BitVec 4) (cl : BitVec 6) (k : BitVec 15)
  /-- BCOPY_COMPLETE (R336). A bulk copy's bytes are visible and its barrier is credited. -/
  | bcopyComplete (die : BitVec 4) (cl : BitVec 6) (k : BitVec 6)
  /-- WORK_DISTRIBUTOR_REQUEST (R214). A distributor request is applied atomically at the descriptor's home, handing out NEXT or the token. -/
  | workDistributorRequest (k : BitVec 12)
  /-- WDQ_ANSWER (R215). A distributor answer is written to the answer word and credits 8 to the barrier. -/
  | wdqAnswer (k : BitVec 12)
  /-- LINKED_LOAD_ADMIT (R187). A linked load element proceeds once the watermark covers it. -/
  | linkedLoadAdmit (k : BitVec 13)
  /-- TOKEN_BUCKET_FILL (R191). A tenant's class bucket gains a token at its rate up to its depth. -/
  | tokenBucketFill (die : BitVec 4) (cl : BitVec 6) (asid : BitVec 16) (c : BitVec 2)
  /-- ECC_CORRECTED (R253). A corrected storage error increments the wear counter and may write a record. -/
  | eccCorrected (die : BitVec 4) (cl : BitVec 6) (u : ErrorUnit) (n : U64)
  /-- ECC_UNCORRECTABLE (R253). An uncorrectable storage error traps, poisons or double-traps according to its unit. -/
  | eccUncorrectable (u : ErrorUnit) (n : U64)
  /-- ERROR_RECORD_WINDOW (R253). The 1 ms window that limits corrected-error records per unit ends. -/
  | errorRecordWindow (die : BitVec 4) (cl : BitVec 6) (u : BitVec 3)
  /-- DEBUG_STOP (R258). Debug port command raising a debug event that stops a wave. -/
  | debugStop (die : BitVec 4) (cl : BitVec 6) (wid : U64)
  /-- DEBUG_RESUME (R258). Debug port command releasing every stopped part of a wave. -/
  | debugResume (die : BitVec 4) (cl : BitVec 6) (wid : U64)
  /-- DEBUG_READ (R258). Debug port command returning state of a stopped wave. -/
  | debugRead (die : BitVec 4) (cl : BitVec 6) (wid : U64) (item : BitVec 3) (n i : BitVec 13)
  /-- DEBUG_WRITE (R259). Debug port command writing a register of a stopped wave under WMODE. -/
  | debugWrite (die : BitVec 4) (cl : BitVec 6) (wid : U64) (item : BitVec 3) (n i : BitVec 13) (x : U64)
  /-- HALT (R260). Debug port command halting a whole compute die and holding its timeouts. -/
  | haltDie (die : BitVec 4)
  /-- UNHALT (R260). Debug port command resuming a halted compute die. -/
  | unhaltDie (die : BitVec 4)
  /-- EXPLORATION_FLIT (R263). A die receives an exploration flit, reports on its first and forwards it. -/
  | explorationFlit (k : BitVec 8)
  /-- EXPLORATION_REPORT (R263). IO die 0 receives a die's report of kind, name and neighbours. -/
  | explorationReport (k : BitVec 8)
  /-- LINK_ERROR_RETRY (R262). A transient link error is recovered by adapter retry. -/
  | linkErrorRetry (l : BitVec 6)
  /-- LINK_TIMEOUT (R262). A link failing to retrain within 100 us is marked failed and LINKFAIL reported. -/
  | linkTimeout (l : BitVec 6)
  /-- POWER_GRANT (R284). A die receives its grant and delays matrix work and blocks to stay within it. -/
  | powerGrant (die : BitVec 4)
  /-- SETWIN (R281). Management command writing a network window descriptor. -/
  | setwin (host : BitVec 1) (a0 a1 a2 a3 : U64)
  /-- CLRWIN (R282). Management command clearing a network window after its operations complete. -/
  | clrwin (host : BitVec 1) (a0 a1 a2 a3 : U64)
  /-- SETINB (R278). Management command setting an inbound region and returning its key. -/
  | setinb (host : BitVec 1) (a0 a1 a2 a3 : U64)
  /-- CLRINB (R282). Management command clearing an inbound region after its operations are performed. -/
  | clrinb (host : BitVec 1) (a0 a1 a2 a3 : U64)
  /-- QPCONN (R281). Management command connecting a queue pair to a remote peer. -/
  | qpconn (host : BitVec 1) (a0 a1 a2 a3 : U64)
  /-- QPCONN_TIMEOUT (R281). A peer that does not answer within 1 s completes QPCONN with NETFAIL. -/
  | qpconnTimeout (host : BitVec 1) (a0 a1 a2 a3 : U64)
  /-- QPCLOSE (R282). Management command closing a local queue pair. -/
  | qpclose (host : BitVec 1) (a0 a1 a2 a3 : U64)
  /-- ATTEST (R275). Management command writing a signed attestation report. -/
  | attest (host : BitVec 1) (a0 a1 a2 a3 : U64)
  /-- LIFECYCLE (R273). Management command advancing the lifecycle state and resetting. -/
  | lifecycle (host : BitVec 1) (a0 a1 a2 a3 : U64)
  /-- SETCAP (R281). Management command setting the core-rail current cap. -/
  | setcap (host : BitVec 1) (a0 a1 a2 a3 : U64)
  /-- PROVISION (R273). Management command generating the device key pair and advancing to PROVISIONED. -/
  | provision (host : BitVec 1) (a0 a1 a2 a3 : U64)
  /-- INBOUND_RDMA_WRITE (R278). An inbound RDMA WRITE is stored through the home bank or refused with NAK. -/
  | inboundRdmaWrite (m : PeerWrite) (pa : U64) (data : List Byte)
  /-- INBOUND_RDMA_READ (R278). An inbound RDMA READ returns values visible at SYSTEM scope. -/
  | inboundRdmaRead (m : PeerAccess) (pa : U64) (n : BitVec 32)
  /-- INBOUND_RDMA_ATOMIC (R278). An inbound atomic is performed by the home atomic unit at SYSTEM scope. -/
  | inboundRdmaAtomic (m : PeerAccess) (pa : U64) (cas : BitVec 1) (x c : U64)
  /-- UNASSIGNED_OPCODE (R320). A word with an unassigned opcode, or with a non-zero reserved or unused field, is reached as an instruction and raises ILLOP. -/
  | unassignedOpcode (w : BitVec 32)
  /-- BADCMD (R281). A management command with a code not listed completes with BADCMD. -/
  | badcmd (host : BitVec 1) (c : CommandWords)
  /-- FLASH_IMAGE_WRITE (R270). A management command writes a new firmware image to flash, tried at the next reset. -/
  | flashImageWrite (whole : BitVec 1) (version : BitVec 32) (entry : U64) (p : ImageParts)
  /-- CONGESTION_NOTIFICATION_PACKET (R277). A received congestion notification packet reduces the RDMA sending rate. -/
  | congestionNotificationPacket (qp : BitVec 13)
  /-- INSTRUCTION_FETCH_REPLY (R206). Instruction words that missed the instruction caches arrive, ending the long dependence of the waiting wave or lane. -/
  | instructionFetchReply (pa : BitVec 60)
  /-- NOP (R372). Advances the PC by 4. -/
  | nop
  /-- ERET (R241). Leaves handler mode, restoring privilege and re-executing or abandoning the trapping work. -/
  | eret
  /-- TLBINV_ALL (R390). Starts invalidation of every translation in the package. -/
  | tlbinvAll
  /-- EXIT (R358). Ends the wave, discarding queued work and releasing its resources. -/
  | exitW
  /-- MACQ (R362). Acquires the matrix unit or joins its ownership queue. -/
  | macq
  /-- MREL (R362). After earlier matrix work completes, ends matrix ownership. -/
  | mrel
  /-- VECTOR_QUEUE_ENTRY_EFFECT (R37). The oldest vector queue entry takes effect once the wave is quiescent with respect to earlier entries. -/
  | vectorQueueEntryEffect
  /-- VFETCH_DISPATCH (R36). A queued VFETCH leaves the queue at quiescence, checks the header and sends the block to active VPs. -/
  | vfetchDispatch
  /-- CATCH_FETCH (R48). A catch fetch placed by VCATCH takes effect, sending its block to the VPs parked on its address. -/
  | catchFetch
  /-- RESENT_FETCH (R143). A fetch re-sent after flush-and-restart takes effect for its waiting lockstep VPs. -/
  | resentFetch
  /-- VCATCH_COMPLETE (R48). VCATCH completes at quiescence, writing the parked count and queuing catch fetches. -/
  | vcatchComplete
  /-- QUEUE_DEADLOCK_TRAP (R54). All non-idle VPs blocked on queues while the control thread waits raises the AIB trap. -/
  | queueDeadlockTrap
  /-- VXTAKE_DEADLOCK_TRAP (R448). VXTAKE blocked while every remaining VP is blocked on queues raises the AIB trap. -/
  | vxtakeDeadlockTrap
  /-- SPILL_ENGINE (R91). After 256 cycles of a short pool, victim registers of the youngest eligible wave are spilled. -/
  | spillEngine
  /-- REGCLAIM_GRANT (R98). A blocked claim is granted once TFREE and the invariant allow, in stamp order. -/
  | regclaimGrant
  /-- CLAIM_DEADLOCK (R99). Every live member blocked in REGCLAIM with TFREE too small raises CLAIMDL on the oldest. -/
  | claimDeadlock
  /-- FORCED_ENTRY (R134). At exhaustion or pre-emption the wave records XPC and XCAUSE and enters its continuation on grace budgets. -/
  | forcedEntry
  /-- GRACE_TIMER_EXPIRY (R136). The 4,096-cycle grace timer expires and a forced full save follows. -/
  | graceTimerExpiry
  /-- FORCED_FULL_SAVE (R137). The wave's context is saved and it leaves the cluster, with supervisor event 0x0D. -/
  | forcedFullSave
  /-- PREEMPTION_REQUEST (R142). A pre-emption request reaches the wave's cluster, zeroing IBGT and resolving in-flight blocks. -/
  | preemptionRequest
  /-- TRAP_ENTRY (R237). A recorded trap is taken: lanes stop, EPC, ECAUSE and EVAL are written and the handler starts. -/
  | trapEntry
  /-- HANDLER_DEFER_LIMIT (R239). A deferred event waiting 1,024 cycles in handler mode forces a full save. -/
  | handlerDeferLimit
  /-- LONG_DEPENDENCE (R206). A stall passing 128 cycles becomes a long dependence and the wave may leave the active set. -/
  | longDependence
  /-- ACTIVE_SET_DISPLACE (R207). A ready pending wave of higher class, or with pre-emption pending, displaces an active wave. -/
  | activeSetDisplace
  /-- ANTI_STARVATION (R207). A pending wave ready for 16,384 cycles displaces an active wave. -/
  | antiStarvation
  /-- MACQ_GRANT (R211). The unowned matrix unit is granted to the highest-class, lowest-stamp queued request. -/
  | macqGrant
  /-- MATRIX_COMPLETE (R222). An in-flight matrix instruction completes, freeing its queue entry and its registers. -/
  | matrixComplete
  /-- LOAD_REPLY (R361). The data of a scalar load arrives and lands in sd. -/
  | loadReply
  /-- TLBINV_COMPLETE (R165). Every TLB and walker cache has dropped the entries and earlier walks have ended. -/
  | tlbinvComplete
  /-- FENCE_COMPLETE (R179). A fence's ordering wait ends and the control thread resumes issue. -/
  | fenceComplete
  /-- MARKER_FIRE (R184). A BARRIVE marker fires once earlier stores are visible and credits its barrier once. -/
  | markerFire
  /-- BWAIT_COMPLETE (R183). A waiting BWAIT sees PHASE change and completes with acquire effect. -/
  | bwaitComplete
  /-- WAITADDR_COMPLETE (R450). A reread finds the location changed and WAITADDR returns it with acquire effect. -/
  | waitaddrComplete
  /-- WAITADDR_POLL (R450). WAITADDR rereads its location at least once every 4,096 cycles. -/
  | waitaddrPoll
  /-- RESET (R269). Reset runs the boot steps in order and brings the package into service. -/
  | resetP
  /-- EXPLORATION_QUIET_TIMEOUT (R263). No flit in flight for 10 us ends exploration. -/
  | explorationQuietTimeout
  /-- WEAR_RECORD_WRITE (R272). The management controller writes the wear record once an hour. -/
  | wearRecordWrite
  /-- POWER_INTERVAL (R283). Every 1 us each die sends its power request and the arbiter returns grants. -/
  | powerInterval
  /-- LAUNCH_HEADER_READ (R383). The data of the launch header read by SPAWN or VSPAWN arrives, the status is decided and the launch is queued and carved. -/
  | launchHeaderRead
  /-- CMDB_LIST_READ (R351). The descriptor list read by CMDB arrives, its descriptors and budget are checked and the commands are entered. -/
  | cmdbListRead
  /-- TOPUP_CREDIT (R345). A BTOPUP credit reaches the target wave, is added directly or as a pending credit, and the status returns to the sender. -/
  | topupCredit
  /-- POWER_FAILURE (R272). Loss of power loses the wear-record counts gathered since the last write. -/
  | powerFailure
  deriving DecidableEq, Repr

end Sys2Proof
end

