-- ==== Sys2Proof/WellFormed.lean ====
section
/-! DEFINITION. Which terms of Instr stand for an instruction the spec defines: no reserved code in any field (R286, check 1)
and one constructor per word. -/

namespace Sys2Proof

/-- A source specifier that R290 reserves, or `ae` outside an epilogue program (R291). -/
def reservedSource (s : BitVec 8) : Bool :=
  decide (s.toNat = 0x45 ∨ s.toNat = 0x46 ∨ s.toNat = 0x47 ∨ (0x68 ≤ s.toNat ∧ s.toNat ≤ 0x7F) ∨ 0xC0 ≤ s.toNat)

/-- A control-register number that R321 assigns. -/
def assignedCr (c : BitVec 12) : Bool :=
  decide (c.toNat ≤ 0x009 ∨ (0x010 ≤ c.toNat ∧ c.toNat ≤ 0x015) ∨ c.toNat = 0x020 ∨ c.toNat = 0x021 ∨ c.toNat = 0x023 ∨
    c.toNat = 0x024 ∨ c.toNat = 0x030 ∨ c.toNat = 0x031 ∨ (0x040 ≤ c.toNat ∧ c.toNat ≤ 0x047) ∨ c.toNat = 0x800 ∨
    (0x802 ≤ c.toNat ∧ c.toNat ≤ 0x805) ∨ c.toNat = 0x810 ∨ c.toNat = 0x811 ∨ c.toNat = 0x820)

/-- A scope code of R174 that is reserved. -/
def reservedScope (c : BitVec 3) : Bool := decide (5 ≤ c.toNat)

/-- A condition code that floating VCMP refuses (R107, R294). -/
def reservedFloatCond (c : BitVec 3) : Bool := decide (4 ≤ c.toNat)

/-- VCVT's codes that R117 refuses with ILLOP. -/
def reservedConvert (t s : BitVec 4) : Bool := decide (12 ≤ s.toNat ∨ 11 ≤ t.toNat ∨ s = t)

/-- A reserved code in a field of the instruction: ILLOP at check 1 of R286. -/
def reservedCode : Instr → Bool
  | .ld _ _ z s _ => z == 3 && s == 1
  | .amo _ _ _ o c _ => decide (10 ≤ o.toNat) || reservedScope c
  | .crrd _ c => !assignedCr c
  | .crwr _ c => !assignedCr c
  | .bc c _ _ _ => c == 7
  | .fence s _ => reservedScope s
  | .xfence s f t => reservedScope s || f == 0 || t == 0
  | .vsetcfg _ _ b => decide (6 ≤ b.toNat)
  | .mop _ a b f _ => (decide (4 ≤ f.toNat) && b != 0) || (f == 6 && a != 0)
  | .barrive s _ c => reservedScope s || c == 0
  | .bcopy _ _ _ _ p => p == 3
  | .thfetchReg _ _ s => reservedSource s
  | .vspawn _ _ a b => reservedSource a || reservedSource b
  | .vaddI _ _ _ a b | .vsubI _ _ _ a b | .vmulI _ _ _ a b | .vmacI _ _ _ a b | .vminI _ _ _ a b | .vminIs _ _ _ a b
  | .vmaxI _ _ _ a b | .vmaxIs _ _ _ a b | .vand _ _ _ a b | .vor _ _ _ a b | .vxor _ _ _ a b | .vshl _ _ _ a b
  | .vshr _ _ _ a b | .vshrA _ _ _ a b | .vperm _ _ _ a b | .bmand _ _ _ a b | .bmpos _ _ _ a b
  | .vaddF32 _ _ _ a b | .vsubF32 _ _ _ a b | .vmulF32 _ _ _ a b | .vfmaF32 _ _ _ a b | .vfmsF32 _ _ _ a b
  | .vdivF32 _ _ _ a b | .vminF32 _ _ _ a b | .vmaxF32 _ _ _ a b | .vaddc _ _ _ a b | .vaddF16 _ _ _ a b
  | .vsubF16 _ _ _ a b | .vmulF16 _ _ _ a b | .vfmaF16 _ _ _ a b | .vminF16 _ _ _ a b | .vmaxF16 _ _ _ a b
  | .vaddE8m7 _ _ _ a b | .vsubE8m7 _ _ _ a b | .vmulE8m7 _ _ _ a b | .vfmaE8m7 _ _ _ a b | .vminE8m7 _ _ _ a b
  | .vmaxE8m7 _ _ _ a b => reservedSource a || reservedSource b
  | .vsel _ _ a b => reservedSource a || reservedSource b
  | .vaddiI _ _ _ a _ | .vandi _ _ _ a _ | .vshli _ _ _ a _ | .vshri _ _ _ a _ | .vshriA _ _ _ a _ => reservedSource a
  | .vmov _ _ _ a | .vsqrtF32 _ _ _ a | .vexp2 _ _ _ a | .vrcp _ _ _ a => reservedSource a
  | .vxsend _ a | .vcompress _ _ a | .vnzscan _ _ a _ => reservedSource a
  | .vred _ _ a c | .vscan _ _ a c => reservedSource a || decide (15 ≤ c.toNat)
  | .vcmpI _ _ c a b => c == 7 || reservedSource a || reservedSource b
  | .vcmpiI _ _ c a _ => c == 7 || reservedSource a
  | .vcmpF32 _ _ c a b | .vcmpF16 _ _ c a b | .vcmpE8m7 _ _ c a b => reservedFloatCond c || reservedSource a || reservedSource b
  | .vcvt _ _ _ a t s => reservedConvert t s || reservedSource a
  | .vld _ _ _ _ _ _ o | .vgath _ _ _ _ _ _ o | .vgathC _ _ _ _ _ _ o => o == 3
  | .vst _ _ _ _ _ _ _ o | .vscat _ _ _ _ _ _ _ o => decide (2 ≤ o.toNat)
  | .vamo _ _ b _ _ _ o | .bkred _ _ b _ _ _ o => decide (2 ≤ o.toNat) || b == 31
  | .mma _ _ _ f _ _ => decide (4 ≤ f.toNat)
  | .mmas _ _ _ f _ _ p _ => decide (4 ≤ f.toNat) || decide (4 ≤ p.toNat)
  | .mscacc d _ _ f _ p z => decide (4 ≤ f.toNat) || (d == p && z == 1)
  | .unassignedOpcode _ => true
  | _ => false

/-- The term is the constructor that its own word decodes to: a CRRD or CRWR of a register that has a row of its own is
not (R321). -/
def canonical : Instr → Bool
  | .crrd _ c => !(c == 0x004)
  | .crwr _ c => !(c == 0x004 || c == 0x800 || c == 0x802 || c == 0x810 || c == 0x811 || c == 0x820)
  | _ => true

/-- An instruction the spec defines, written with its own constructor. -/
def wellFormed (i : Instr) : Bool := canonical i && !reservedCode i

end Sys2Proof
end

