-- ==== Sys2Proof/Decode.lean ====
section
/-! DEFINITION. Decoding of words (R285 to R321): total on any word, and the encoder beside it. -/

namespace Sys2Proof

/-- The `n`-bit field of `w` from bit `lo`. -/
def fd (n w lo : Nat) : BitVec n := BitVec.ofNat n (w / 2 ^ lo)

/-- A CRWR word, by the register it names: the rows FFLAGS_ACCESS, LANEPWR_WRITE, TRAPVEC_WRITE, TOKRATE_WRITE,
TOKDEPTH_WRITE and DBGCTL_WRITE are the writes of those registers (R321). -/
def crwrOf (a : BitVec 5) (c : BitVec 12) : Instr :=
  if c = 0x004 then .fflagsAccess 1 a
  else if c = 0x800 then .lanepwrWrite a
  else if c = 0x802 then .trapvecWrite a
  else if c = 0x810 then .tokrateWrite a
  else if c = 0x811 then .tokdepthWrite a
  else if c = 0x820 then .dbgctlWrite a
  else .crwr a c

/-- Words whose opcode lies in row 0_ of R318. -/
def decodeRow0 (w : Nat) : Option Instr :=
  match bits w 24 4 with
  | 1 => if bits w 0 9 = 0 then some (.add (fd 5 w 19) (fd 5 w 14) (fd 5 w 9))
    else none
  | 2 => if bits w 0 9 = 0 then some (.sub (fd 5 w 19) (fd 5 w 14) (fd 5 w 9))
    else none
  | 3 => if bits w 0 9 = 0 then some (.mul (fd 5 w 19) (fd 5 w 14) (fd 5 w 9))
    else none
  | 4 => if bits w 0 9 = 0 then some (.mulh (fd 5 w 19) (fd 5 w 14) (fd 5 w 9))
    else none
  | 5 => if bits w 0 9 = 0 then some (.mulhs (fd 5 w 19) (fd 5 w 14) (fd 5 w 9))
    else none
  | 6 => if bits w 0 9 = 0 then some (.div (fd 5 w 19) (fd 5 w 14) (fd 5 w 9))
    else none
  | 7 => if bits w 0 9 = 0 then some (.divs (fd 5 w 19) (fd 5 w 14) (fd 5 w 9))
    else none
  | 8 => if bits w 0 9 = 0 then some (.rem (fd 5 w 19) (fd 5 w 14) (fd 5 w 9))
    else none
  | 9 => if bits w 0 9 = 0 then some (.rems (fd 5 w 19) (fd 5 w 14) (fd 5 w 9))
    else none
  | 10 => if bits w 0 9 = 0 then some (.andS (fd 5 w 19) (fd 5 w 14) (fd 5 w 9))
    else none
  | 11 => if bits w 0 9 = 0 then some (.orS (fd 5 w 19) (fd 5 w 14) (fd 5 w 9))
    else none
  | 12 => if bits w 0 9 = 0 then some (.xorS (fd 5 w 19) (fd 5 w 14) (fd 5 w 9))
    else none
  | 13 => if bits w 0 9 = 0 then some (.shl (fd 5 w 19) (fd 5 w 14) (fd 5 w 9))
    else none
  | 14 => if bits w 0 9 = 0 then some (.shr (fd 5 w 19) (fd 5 w 14) (fd 5 w 9))
    else none
  | 15 => if bits w 0 9 = 0 then some (.sar (fd 5 w 19) (fd 5 w 14) (fd 5 w 9))
    else none
  | _ => none

/-- Words whose opcode lies in row 1_ of R318. -/
def decodeRow1 (w : Nat) : Option Instr :=
  match bits w 24 4 with
  | 0 => if bits w 0 9 = 0 then some (.slt (fd 5 w 19) (fd 5 w 14) (fd 5 w 9))
    else none
  | 1 => if bits w 0 9 = 0 then some (.slts (fd 5 w 19) (fd 5 w 14) (fd 5 w 9))
    else none
  | 2 => if bits w 0 9 = 0 then some (.minU (fd 5 w 19) (fd 5 w 14) (fd 5 w 9))
    else none
  | 3 => if bits w 0 9 = 0 then some (.mins (fd 5 w 19) (fd 5 w 14) (fd 5 w 9))
    else none
  | 4 => if bits w 0 9 = 0 then some (.maxU (fd 5 w 19) (fd 5 w 14) (fd 5 w 9))
    else none
  | 5 => if bits w 0 9 = 0 then some (.maxs (fd 5 w 19) (fd 5 w 14) (fd 5 w 9))
    else none
  | 6 => if bits w 0 14 = 0 then some (.popc (fd 5 w 19) (fd 5 w 14))
    else none
  | 7 => if bits w 0 14 = 0 then some (.clz (fd 5 w 19) (fd 5 w 14))
    else none
  | 8 => some (.addi (fd 5 w 19) (fd 5 w 14) (fd 14 w 0))
  | 9 => some (.andi (fd 5 w 19) (fd 5 w 14) (fd 14 w 0))
  | 10 => some (.ori (fd 5 w 19) (fd 5 w 14) (fd 14 w 0))
  | 11 => some (.xori (fd 5 w 19) (fd 5 w 14) (fd 14 w 0))
  | 12 => some (.shli (fd 5 w 19) (fd 5 w 14) (fd 14 w 0))
  | 13 => some (.shri (fd 5 w 19) (fd 5 w 14) (fd 14 w 0))
  | 14 => some (.sari (fd 5 w 19) (fd 5 w 14) (fd 14 w 0))
  | 15 => some (.slti (fd 5 w 19) (fd 5 w 14) (fd 14 w 0))
  | _ => none

/-- Words whose opcode lies in row 2_ of R318. -/
def decodeRow2 (w : Nat) : Option Instr :=
  match bits w 24 4 with
  | 0 => some (.li (fd 5 w 19) (fd 19 w 0))
  | 1 => some (.lis (fd 5 w 19) (fd 19 w 0))
  | 2 => some (.ld (fd 5 w 19) (fd 5 w 14) (fd 2 w 12) (fd 1 w 11) (fd 11 w 0))
  | 3 => if bits w 11 1 = 0 then some (.st (fd 5 w 19) (fd 5 w 14) (fd 2 w 12) (fd 11 w 0))
    else none
  | 4 => some (.amo (fd 5 w 19) (fd 5 w 14) (fd 5 w 9) (fd 4 w 5) (fd 3 w 2) (fd 2 w 0))
  | 5 => if bits w 12 7 = 0 then some (if bits w 0 12 = 0x004 then .fflagsAccess 0 (fd 5 w 19) else .crrd (fd 5 w 19) (fd 12 w 0))
    else none
  | 6 => if bits w 12 2 = 0 ∧ bits w 19 5 = 0 then some (crwrOf (fd 5 w 14) (fd 12 w 0))
    else none
  | _ => none

/-- Words whose opcode lies in row 3_ of R318. -/
def decodeRow3 (w : Nat) : Option Instr :=
  match bits w 24 4 with
  | 0 => if bits w 0 24 = 0 then some (.nop)
    else none
  | 1 => some (.br (fd 24 w 0))
  | 2 => some (.bc (fd 3 w 21) (fd 5 w 16) (fd 5 w 11) (fd 11 w 0))
  | 3 => some (.call (fd 24 w 0))
  | 4 => if bits w 0 14 = 0 then some (.jr (fd 5 w 19) (fd 5 w 14))
    else none
  | 5 => some (.brany (fd 3 w 21) (fd 21 w 0))
  | 6 => some (.brall (fd 3 w 21) (fd 21 w 0))
  | 7 => some (.brnone (fd 3 w 21) (fd 21 w 0))
  | 8 => some (.trapS (fd 24 w 0))
  | 9 => if bits w 0 24 = 0 then some (.eret)
    else none
  | 10 => some (.dbgbrk (fd 24 w 0))
  | 11 => if bits w 0 9 = 0 ∧ bits w 19 5 = 0 then some (.tlbinvPage (fd 5 w 14) (fd 5 w 9))
    else if bits w 0 9 = 0 ∧ bits w 14 10 = 256 then some (.tlbinvAsid (fd 5 w 9))
    else if bits w 0 24 = 8388608 then some (.tlbinvAll)
    else none
  | 12 => if bits w 0 9 = 0 then some (.waitaddr (fd 5 w 19) (fd 5 w 14) (fd 5 w 9))
    else none
  | 13 => if bits w 0 19 = 0 then some (.fence (fd 3 w 21) (fd 2 w 19))
    else none
  | 14 => if bits w 0 11 = 0 then some (.xfence (fd 3 w 21) (fd 5 w 16) (fd 5 w 11))
    else none
  | 15 => if bits w 0 24 = 0 then some (.exitW)
    else none
  | _ => none

/-- Words whose opcode lies in row 4_ of R318. -/
def decodeRow4 (w : Nat) : Option Instr :=
  match bits w 24 4 with
  | 0 => if bits w 0 17 = 0 then some (.vsetcfg (fd 2 w 22) (fd 2 w 20) (fd 3 w 17))
    else none
  | 1 => if bits w 0 13 = 0 then some (.vsetvl (fd 5 w 19) (fd 5 w 14) (fd 1 w 13))
    else none
  | 2 => if bits w 0 14 = 0 then some (.psetvl (fd 5 w 19) (fd 5 w 14))
    else none
  | 3 => if bits w 0 18 = 0 then some (.reggive (fd 6 w 18))
    else none
  | 4 => if bits w 0 18 = 0 then some (.regclaim (fd 6 w 18))
    else none
  | 5 => if bits w 22 1 = 0 then some (.vfetch (fd 1 w 23) (fd 22 w 0))
    else if bits w 0 16 = 0 ∧ bits w 21 2 = 2 then some (.vfetchReg (fd 1 w 23) (fd 5 w 16))
    else none
  | 6 => if bits w 0 19 = 0 then some (.vcatch (fd 5 w 19))
    else none
  | 7 => if bits w 0 10 = 0 then some (.abegin (fd 6 w 18) (fd 6 w 12) (fd 1 w 11) (fd 1 w 10))
    else none
  | 8 => if bits w 22 1 = 0 then some (.thfetch (fd 1 w 23) (fd 22 w 0))
    else if bits w 0 8 = 0 ∧ bits w 21 2 = 2 then some (.thfetchReg (fd 1 w 23) (fd 5 w 16) (fd 8 w 8))
    else none
  | 9 => if bits w 0 23 = 0 then some (.vpstop (fd 1 w 23))
    else none
  | 11 => if bits w 0 10 = 0 then some (.velect (fd 5 w 19) (fd 3 w 16) (fd 6 w 10))
    else if bits w 0 16 = 512 then some (.velectIdx (fd 5 w 19) (fd 3 w 16))
    else none
  | 12 => if bits w 0 9 = 0 then some (.vballot (fd 5 w 19) (fd 3 w 16) (fd 7 w 9))
    else none
  | 13 => if bits w 0 7 = 0 then some (.mop (fd 3 w 21) (fd 3 w 18) (fd 3 w 15) (fd 3 w 12) (fd 5 w 7))
    else none
  | 14 => if bits w 0 14 = 0 ∧ bits w 19 5 = 0 then some (.vxseed (fd 5 w 14))
    else none
  | 15 => if bits w 0 19 = 0 then some (.vxtake (fd 5 w 19))
    else none
  | _ => none

/-- Words whose opcode lies in row 5_ of R318. -/
def decodeRow5 (w : Nat) : Option Instr :=
  match bits w 24 4 with
  | 0 => some (.vaddI (fd 1 w 23) (fd 6 w 17) (fd 1 w 16) (fd 8 w 8) (fd 8 w 0))
  | 1 => some (.vsubI (fd 1 w 23) (fd 6 w 17) (fd 1 w 16) (fd 8 w 8) (fd 8 w 0))
  | 2 => some (.vmulI (fd 1 w 23) (fd 6 w 17) (fd 1 w 16) (fd 8 w 8) (fd 8 w 0))
  | 3 => some (.vmacI (fd 1 w 23) (fd 6 w 17) (fd 1 w 16) (fd 8 w 8) (fd 8 w 0))
  | 4 => some (.vminI (fd 1 w 23) (fd 6 w 17) (fd 1 w 16) (fd 8 w 8) (fd 8 w 0))
  | 5 => some (.vminIs (fd 1 w 23) (fd 6 w 17) (fd 1 w 16) (fd 8 w 8) (fd 8 w 0))
  | 6 => some (.vmaxI (fd 1 w 23) (fd 6 w 17) (fd 1 w 16) (fd 8 w 8) (fd 8 w 0))
  | 7 => some (.vmaxIs (fd 1 w 23) (fd 6 w 17) (fd 1 w 16) (fd 8 w 8) (fd 8 w 0))
  | 8 => some (.vand (fd 1 w 23) (fd 6 w 17) (fd 1 w 16) (fd 8 w 8) (fd 8 w 0))
  | 9 => some (.vor (fd 1 w 23) (fd 6 w 17) (fd 1 w 16) (fd 8 w 8) (fd 8 w 0))
  | 10 => some (.vxor (fd 1 w 23) (fd 6 w 17) (fd 1 w 16) (fd 8 w 8) (fd 8 w 0))
  | 11 => some (.vshl (fd 1 w 23) (fd 6 w 17) (fd 1 w 16) (fd 8 w 8) (fd 8 w 0))
  | 12 => some (.vshr (fd 1 w 23) (fd 6 w 17) (fd 1 w 16) (fd 8 w 8) (fd 8 w 0))
  | 13 => some (.vshrA (fd 1 w 23) (fd 6 w 17) (fd 1 w 16) (fd 8 w 8) (fd 8 w 0))
  | 14 => if bits w 16 1 = 0 then some (.vcmpI (fd 1 w 23) (fd 3 w 20) (fd 3 w 17) (fd 8 w 8) (fd 8 w 0))
    else none
  | 15 => if bits w 23 1 = 0 then some (.vsel (fd 6 w 17) (fd 1 w 16) (fd 8 w 8) (fd 8 w 0))
    else none
  | _ => none

/-- Words whose opcode lies in row 6_ of R318. -/
def decodeRow6 (w : Nat) : Option Instr :=
  match bits w 24 4 with
  | 0 => some (.vaddiI (fd 1 w 23) (fd 6 w 17) (fd 1 w 16) (fd 8 w 8) (fd 8 w 0))
  | 1 => some (.vandi (fd 1 w 23) (fd 6 w 17) (fd 1 w 16) (fd 8 w 8) (fd 8 w 0))
  | 2 => some (.vshli (fd 1 w 23) (fd 6 w 17) (fd 1 w 16) (fd 8 w 8) (fd 8 w 0))
  | 3 => some (.vshri (fd 1 w 23) (fd 6 w 17) (fd 1 w 16) (fd 8 w 8) (fd 8 w 0))
  | 4 => some (.vshriA (fd 1 w 23) (fd 6 w 17) (fd 1 w 16) (fd 8 w 8) (fd 8 w 0))
  | 5 => if bits w 16 1 = 0 then some (.vcmpiI (fd 1 w 23) (fd 3 w 20) (fd 3 w 17) (fd 8 w 8) (fd 8 w 0))
    else none
  | 6 => if bits w 8 8 = 0 then some (.vmovi (fd 1 w 23) (fd 6 w 17) (fd 1 w 16) (fd 8 w 0))
    else none
  | 7 => if bits w 0 8 = 0 then some (.vmov (fd 1 w 23) (fd 6 w 17) (fd 1 w 16) (fd 8 w 8))
    else none
  | 8 => if bits w 0 16 = 0 then some (.viota (fd 1 w 23) (fd 6 w 17) (fd 1 w 16))
    else none
  | 9 => if bits w 0 8 = 0 ∧ bits w 16 7 = 0 then some (.vxsend (fd 1 w 23) (fd 8 w 8))
    else none
  | 10 => some (.vperm (fd 1 w 23) (fd 6 w 17) (fd 1 w 16) (fd 8 w 8) (fd 8 w 0))
  | 11 => if bits w 0 8 = 0 ∧ bits w 16 1 = 0 then some (.vcompress (fd 1 w 23) (fd 6 w 17) (fd 8 w 8))
    else none
  | 12 => if bits w 16 1 = 0 then some (.vred (fd 1 w 23) (fd 6 w 17) (fd 8 w 8) (fd 8 w 0))
    else none
  | 13 => if bits w 16 1 = 0 then some (.vscan (fd 1 w 23) (fd 6 w 17) (fd 8 w 8) (fd 8 w 0))
    else none
  | 14 => if bits w 1 7 = 0 ∧ bits w 16 1 = 0 then some (.vnzscan (fd 1 w 23) (fd 6 w 17) (fd 8 w 8) (fd 1 w 0))
    else none
  | 15 => some (.bmand (fd 1 w 23) (fd 6 w 17) (fd 1 w 16) (fd 8 w 8) (fd 8 w 0))
  | _ => none

/-- Words whose opcode lies in row 7_ of R318. -/
def decodeRow7 (w : Nat) : Option Instr :=
  match bits w 24 4 with
  | 0 => some (.bmpos (fd 1 w 23) (fd 6 w 17) (fd 1 w 16) (fd 8 w 8) (fd 8 w 0))
  | 1 => some (.vaddF32 (fd 1 w 23) (fd 6 w 17) (fd 1 w 16) (fd 8 w 8) (fd 8 w 0))
  | 2 => some (.vsubF32 (fd 1 w 23) (fd 6 w 17) (fd 1 w 16) (fd 8 w 8) (fd 8 w 0))
  | 3 => some (.vmulF32 (fd 1 w 23) (fd 6 w 17) (fd 1 w 16) (fd 8 w 8) (fd 8 w 0))
  | 4 => some (.vfmaF32 (fd 1 w 23) (fd 6 w 17) (fd 1 w 16) (fd 8 w 8) (fd 8 w 0))
  | 5 => some (.vfmsF32 (fd 1 w 23) (fd 6 w 17) (fd 1 w 16) (fd 8 w 8) (fd 8 w 0))
  | 6 => some (.vdivF32 (fd 1 w 23) (fd 6 w 17) (fd 1 w 16) (fd 8 w 8) (fd 8 w 0))
  | 7 => if bits w 0 8 = 0 then some (.vsqrtF32 (fd 1 w 23) (fd 6 w 17) (fd 1 w 16) (fd 8 w 8))
    else none
  | 8 => some (.vminF32 (fd 1 w 23) (fd 6 w 17) (fd 1 w 16) (fd 8 w 8) (fd 8 w 0))
  | 9 => some (.vmaxF32 (fd 1 w 23) (fd 6 w 17) (fd 1 w 16) (fd 8 w 8) (fd 8 w 0))
  | 10 => if bits w 16 1 = 0 then some (.vcmpF32 (fd 1 w 23) (fd 3 w 20) (fd 3 w 17) (fd 8 w 8) (fd 8 w 0))
    else none
  | 11 => if bits w 0 8 = 0 then some (.vexp2 (fd 1 w 23) (fd 6 w 17) (fd 1 w 16) (fd 8 w 8))
    else none
  | 12 => if bits w 0 8 = 0 then some (.vrcp (fd 1 w 23) (fd 6 w 17) (fd 1 w 16) (fd 8 w 8))
    else none
  | 13 => some (.vaddc (fd 1 w 23) (fd 6 w 17) (fd 1 w 16) (fd 8 w 8) (fd 8 w 0))
  | 14 => some (.vaddF16 (fd 1 w 23) (fd 6 w 17) (fd 1 w 16) (fd 8 w 8) (fd 8 w 0))
  | 15 => some (.vsubF16 (fd 1 w 23) (fd 6 w 17) (fd 1 w 16) (fd 8 w 8) (fd 8 w 0))
  | _ => none

/-- Words whose opcode lies in row 8_ of R318. -/
def decodeRow8 (w : Nat) : Option Instr :=
  match bits w 24 4 with
  | 0 => some (.vmulF16 (fd 1 w 23) (fd 6 w 17) (fd 1 w 16) (fd 8 w 8) (fd 8 w 0))
  | 1 => some (.vfmaF16 (fd 1 w 23) (fd 6 w 17) (fd 1 w 16) (fd 8 w 8) (fd 8 w 0))
  | 2 => some (.vminF16 (fd 1 w 23) (fd 6 w 17) (fd 1 w 16) (fd 8 w 8) (fd 8 w 0))
  | 3 => some (.vmaxF16 (fd 1 w 23) (fd 6 w 17) (fd 1 w 16) (fd 8 w 8) (fd 8 w 0))
  | 4 => if bits w 16 1 = 0 then some (.vcmpF16 (fd 1 w 23) (fd 3 w 20) (fd 3 w 17) (fd 8 w 8) (fd 8 w 0))
    else none
  | 5 => some (.vaddE8m7 (fd 1 w 23) (fd 6 w 17) (fd 1 w 16) (fd 8 w 8) (fd 8 w 0))
  | 6 => some (.vsubE8m7 (fd 1 w 23) (fd 6 w 17) (fd 1 w 16) (fd 8 w 8) (fd 8 w 0))
  | 7 => some (.vmulE8m7 (fd 1 w 23) (fd 6 w 17) (fd 1 w 16) (fd 8 w 8) (fd 8 w 0))
  | 8 => some (.vfmaE8m7 (fd 1 w 23) (fd 6 w 17) (fd 1 w 16) (fd 8 w 8) (fd 8 w 0))
  | 9 => some (.vminE8m7 (fd 1 w 23) (fd 6 w 17) (fd 1 w 16) (fd 8 w 8) (fd 8 w 0))
  | 10 => some (.vmaxE8m7 (fd 1 w 23) (fd 6 w 17) (fd 1 w 16) (fd 8 w 8) (fd 8 w 0))
  | 11 => if bits w 16 1 = 0 then some (.vcmpE8m7 (fd 1 w 23) (fd 3 w 20) (fd 3 w 17) (fd 8 w 8) (fd 8 w 0))
    else none
  | 12 => some (.vcvt (fd 1 w 23) (fd 6 w 17) (fd 1 w 16) (fd 8 w 8) (fd 4 w 4) (fd 4 w 0))
  | _ => none

/-- Words whose opcode lies in row 9_ of R318. -/
def decodeRow9 (w : Nat) : Option Instr :=
  match bits w 24 4 with
  | 0 => if bits w 16 1 = 0 then some (.vld (fd 1 w 23) (fd 6 w 17) (fd 5 w 11) (fd 6 w 5) (fd 1 w 4) (fd 2 w 2) (fd 2 w 0))
    else none
  | 1 => some (.vst (fd 1 w 23) (fd 6 w 17) (fd 1 w 16) (fd 5 w 11) (fd 6 w 5) (fd 1 w 4) (fd 2 w 2) (fd 2 w 0))
  | 2 => if bits w 16 1 = 0 then some (.vgath (fd 1 w 23) (fd 6 w 17) (fd 5 w 11) (fd 6 w 5) (fd 1 w 4) (fd 2 w 2) (fd 2 w 0))
    else none
  | 3 => if bits w 16 1 = 0 then some (.vgathC (fd 1 w 23) (fd 6 w 17) (fd 5 w 11) (fd 6 w 5) (fd 1 w 4) (fd 2 w 2) (fd 2 w 0))
    else none
  | 4 => some (.vscat (fd 1 w 23) (fd 6 w 17) (fd 1 w 16) (fd 5 w 11) (fd 6 w 5) (fd 1 w 4) (fd 2 w 2) (fd 2 w 0))
  | 5 => if bits w 16 1 = 0 then some (.vamo (fd 1 w 23) (fd 6 w 17) (fd 5 w 11) (fd 6 w 5) (fd 1 w 4) (fd 2 w 2) (fd 2 w 0))
    else none
  | 6 => if bits w 16 1 = 0 then some (.bkred (fd 1 w 23) (fd 6 w 17) (fd 5 w 11) (fd 6 w 5) (fd 1 w 4) (fd 2 w 2) (fd 2 w 0))
    else none
  | 7 => if bits w 0 9 = 0 then some (.wmlink (fd 3 w 21) (fd 5 w 16) (fd 5 w 11) (fd 2 w 9))
    else none
  | 8 => if bits w 0 14 = 0 then some (.wmpub (fd 5 w 19) (fd 5 w 14))
    else none
  | _ => none

/-- Words whose opcode lies in row A_ of R318. -/
def decodeRowA (w : Nat) : Option Instr :=
  match bits w 24 4 with
  | 0 => if bits w 0 2 = 0 then some (.bcopy (fd 5 w 19) (fd 5 w 14) (fd 5 w 9) (fd 5 w 4) (fd 2 w 2))
    else none
  | 1 => if bits w 0 14 = 0 then some (.cmdb (fd 5 w 19) (fd 5 w 14))
    else none
  | 2 => if bits w 0 14 = 0 then some (.barinit (fd 5 w 19) (fd 5 w 14))
    else none
  | 3 => some (.barrive (fd 3 w 21) (fd 5 w 16) (fd 16 w 0))
  | 4 => if bits w 0 18 = 0 then some (.bwait (fd 5 w 19) (fd 1 w 18))
    else none
  | 5 => if bits w 0 9 = 0 then some (.wdq (fd 5 w 19) (fd 5 w 14) (fd 5 w 9))
    else none
  | _ => none

/-- Words whose opcode lies in row B_ of R318. -/
def decodeRowB (w : Nat) : Option Instr :=
  match bits w 24 4 with
  | 0 => if bits w 0 24 = 0 then some (.macq)
    else none
  | 1 => if bits w 0 24 = 0 then some (.mrel)
    else none
  | 2 => if bits w 0 4 = 0 then some (.mma (fd 2 w 22) (fd 6 w 16) (fd 6 w 10) (fd 4 w 6) (fd 1 w 5) (fd 1 w 4))
    else none
  | 3 => some (.mmas (fd 2 w 22) (fd 6 w 16) (fd 6 w 10) (fd 4 w 6) (fd 1 w 5) (fd 1 w 4) (fd 3 w 1) (fd 1 w 0))
  | 4 => if bits w 0 2 = 0 then some (.mscacc (fd 2 w 22) (fd 6 w 16) (fd 6 w 10) (fd 4 w 6) (fd 1 w 5) (fd 2 w 3) (fd 1 w 2))
    else none
  | 5 => if bits w 0 2 = 0 ∧ bits w 4 1 = 0 ∧ bits w 6 10 = 0 then some (.mmovTileToReg (fd 2 w 22) (fd 6 w 16) (fd 1 w 5) (fd 2 w 2))
    else if bits w 0 2 = 0 ∧ bits w 4 1 = 1 ∧ bits w 6 10 = 0 then some (.mmovRegToTile (fd 2 w 22) (fd 6 w 16) (fd 1 w 5) (fd 2 w 2))
    else none
  | 6 => if bits w 0 5 = 0 ∧ bits w 6 16 = 0 then some (.mzero (fd 2 w 22) (fd 1 w 5))
    else if bits w 0 5 = 16 ∧ bits w 6 18 = 0 then some (.mzeroAll (fd 1 w 5))
    else none
  | 7 => if bits w 0 2 = 0 ∧ bits w 4 12 = 0 ∧ bits w 21 1 = 0 then some (.msave (fd 2 w 22) (fd 5 w 16) (fd 2 w 2))
    else none
  | 8 => if bits w 0 2 = 0 ∧ bits w 4 12 = 0 ∧ bits w 21 1 = 0 then some (.mrest (fd 2 w 22) (fd 5 w 16) (fd 2 w 2))
    else none
  | 9 => if bits w 0 1 = 0 then some (.mepi (fd 2 w 22) (fd 6 w 16) (fd 6 w 10) (fd 4 w 6) (fd 1 w 5) (fd 1 w 4) (fd 2 w 2) (fd 1 w 1))
    else none
  | _ => none

/-- Words whose opcode lies in row C_ of R318. -/
def decodeRowC (w : Nat) : Option Instr :=
  match bits w 24 4 with
  | 0 => if bits w 0 9 = 0 then some (.spawn (fd 5 w 19) (fd 5 w 14) (fd 5 w 9))
    else none
  | 1 => if bits w 16 4 = 0 then some (.vspawn (fd 1 w 23) (fd 3 w 20) (fd 8 w 8) (fd 8 w 0))
    else none
  | 2 => if bits w 0 14 = 0 ∧ bits w 19 5 = 0 then some (.yieldW (fd 5 w 14))
    else none
  | 3 => if bits w 0 20 = 0 then some (.contset (fd 4 w 20))
    else none
  | 4 => if bits w 0 4 = 0 then some (.btopup (fd 5 w 19) (fd 5 w 14) (fd 5 w 9) (fd 5 w 4))
    else if bits w 0 14 = 8 then some (.btopupZ (fd 5 w 19) (fd 5 w 14))
    else none
  | 5 => if bits w 0 10 = 0 then some (.repf (fd 4 w 20) (fd 6 w 14) (fd 4 w 10))
    else none
  | _ => none

/-- The instruction that a 32-bit word is (R318, R286 check 1 but for reserved codes, which execution refuses): none for
an unassigned opcode or a non-zero reserved or unused field. -/
def decodeWord (w : Nat) : Option Instr :=
  match bits w 28 4 with
  | 0 => decodeRow0 w
  | 1 => decodeRow1 w
  | 2 => decodeRow2 w
  | 3 => decodeRow3 w
  | 4 => decodeRow4 w
  | 5 => decodeRow5 w
  | 6 => decodeRow6 w
  | 7 => decodeRow7 w
  | 8 => decodeRow8 w
  | 9 => decodeRow9 w
  | 10 => decodeRowA w
  | 11 => decodeRowB w
  | 12 => decodeRowC w
  | _ => none

/-- The word stored little-endian in four bytes (R285). -/
def wordOfBytes (b0 b1 b2 b3 : Byte) : Nat := b0.toNat + 0x100 * b1.toNat + 0x10000 * b2.toNat + 0x1000000 * b3.toNat

/-- Decoding of the bytes at an instruction's address: total on any bytes, and the rest of the list. -/
def decodeBytes : List Byte → Option (Instr × List Byte)
  | b0 :: b1 :: b2 :: b3 :: rest => (decodeWord (wordOfBytes b0 b1 b2 b3)).map (fun i => (i, rest))
  | _ => none

/-- The instruction that the machine runs for a word: the decoded one, and UNASSIGNED_OPCODE for a word that is refused
(R320). -/
def instrOfWord (w : BitVec 32) : Instr := (decodeWord w.toNat).getD (.unassignedOpcode w)

/-- What the decoder reads from an instruction whose bits are `w` in the opcode table's numbering: the word is stored
little-endian, so bit 0 is the least significant bit of its first byte. -/
def decodeTableWord (nbits w : Nat) : Option Instr :=
  (decodeBytes [BitVec.ofNat 8 (w % 2 ^ nbits), BitVec.ofNat 8 (w % 2 ^ nbits / 0x100), BitVec.ofNat 8 (w % 2 ^ nbits / 0x10000),
    BitVec.ofNat 8 (w % 2 ^ nbits / 0x1000000)]).map Prod.fst

/-- The word of an instruction, as a number, written from the encoding tables of R285 to R306 and the reference entries;
none for the machine's own steps, which no word encodes. -/
def encodeNat : Instr → Option Nat
  | .add d a b => some (0x01000000 + d.toNat * 0x80000 + a.toNat * 0x4000 + b.toNat * 0x200)
  | .sub d a b => some (0x02000000 + d.toNat * 0x80000 + a.toNat * 0x4000 + b.toNat * 0x200)
  | .mul d a b => some (0x03000000 + d.toNat * 0x80000 + a.toNat * 0x4000 + b.toNat * 0x200)
  | .mulh d a b => some (0x04000000 + d.toNat * 0x80000 + a.toNat * 0x4000 + b.toNat * 0x200)
  | .mulhs d a b => some (0x05000000 + d.toNat * 0x80000 + a.toNat * 0x4000 + b.toNat * 0x200)
  | .div d a b => some (0x06000000 + d.toNat * 0x80000 + a.toNat * 0x4000 + b.toNat * 0x200)
  | .divs d a b => some (0x07000000 + d.toNat * 0x80000 + a.toNat * 0x4000 + b.toNat * 0x200)
  | .rem d a b => some (0x08000000 + d.toNat * 0x80000 + a.toNat * 0x4000 + b.toNat * 0x200)
  | .rems d a b => some (0x09000000 + d.toNat * 0x80000 + a.toNat * 0x4000 + b.toNat * 0x200)
  | .andS d a b => some (0x0A000000 + d.toNat * 0x80000 + a.toNat * 0x4000 + b.toNat * 0x200)
  | .orS d a b => some (0x0B000000 + d.toNat * 0x80000 + a.toNat * 0x4000 + b.toNat * 0x200)
  | .xorS d a b => some (0x0C000000 + d.toNat * 0x80000 + a.toNat * 0x4000 + b.toNat * 0x200)
  | .shl d a b => some (0x0D000000 + d.toNat * 0x80000 + a.toNat * 0x4000 + b.toNat * 0x200)
  | .shr d a b => some (0x0E000000 + d.toNat * 0x80000 + a.toNat * 0x4000 + b.toNat * 0x200)
  | .sar d a b => some (0x0F000000 + d.toNat * 0x80000 + a.toNat * 0x4000 + b.toNat * 0x200)
  | .slt d a b => some (0x10000000 + d.toNat * 0x80000 + a.toNat * 0x4000 + b.toNat * 0x200)
  | .slts d a b => some (0x11000000 + d.toNat * 0x80000 + a.toNat * 0x4000 + b.toNat * 0x200)
  | .minU d a b => some (0x12000000 + d.toNat * 0x80000 + a.toNat * 0x4000 + b.toNat * 0x200)
  | .mins d a b => some (0x13000000 + d.toNat * 0x80000 + a.toNat * 0x4000 + b.toNat * 0x200)
  | .maxU d a b => some (0x14000000 + d.toNat * 0x80000 + a.toNat * 0x4000 + b.toNat * 0x200)
  | .maxs d a b => some (0x15000000 + d.toNat * 0x80000 + a.toNat * 0x4000 + b.toNat * 0x200)
  | .popc d a => some (0x16000000 + d.toNat * 0x80000 + a.toNat * 0x4000)
  | .clz d a => some (0x17000000 + d.toNat * 0x80000 + a.toNat * 0x4000)
  | .addi d a i => some (0x18000000 + d.toNat * 0x80000 + a.toNat * 0x4000 + i.toNat)
  | .andi d a i => some (0x19000000 + d.toNat * 0x80000 + a.toNat * 0x4000 + i.toNat)
  | .ori d a i => some (0x1A000000 + d.toNat * 0x80000 + a.toNat * 0x4000 + i.toNat)
  | .xori d a i => some (0x1B000000 + d.toNat * 0x80000 + a.toNat * 0x4000 + i.toNat)
  | .shli d a i => some (0x1C000000 + d.toNat * 0x80000 + a.toNat * 0x4000 + i.toNat)
  | .shri d a i => some (0x1D000000 + d.toNat * 0x80000 + a.toNat * 0x4000 + i.toNat)
  | .sari d a i => some (0x1E000000 + d.toNat * 0x80000 + a.toNat * 0x4000 + i.toNat)
  | .slti d a i => some (0x1F000000 + d.toNat * 0x80000 + a.toNat * 0x4000 + i.toNat)
  | .li d i => some (0x20000000 + d.toNat * 0x80000 + i.toNat)
  | .lis d i => some (0x21000000 + d.toNat * 0x80000 + i.toNat)
  | .ld d a z s o => some (0x22000000 + d.toNat * 0x80000 + a.toNat * 0x4000 + z.toNat * 0x1000 + s.toNat * 0x800 + o.toNat)
  | .st d a z o => some (0x23000000 + d.toNat * 0x80000 + a.toNat * 0x4000 + z.toNat * 0x1000 + o.toNat)
  | .amo d a b o c r => some (0x24000000 + d.toNat * 0x80000 + a.toNat * 0x4000 + b.toNat * 0x200 + o.toNat * 0x20 + c.toNat * 0x4 + r.toNat)
  | .crrd d c => some (0x25000000 + d.toNat * 0x80000 + c.toNat)
  | .crwr a c => some (0x26000000 + a.toNat * 0x4000 + c.toNat)
  | .nop => some (0x30000000)
  | .br o => some (0x31000000 + o.toNat)
  | .bc c a b o => some (0x32000000 + c.toNat * 0x200000 + a.toNat * 0x10000 + b.toNat * 0x800 + o.toNat)
  | .call o => some (0x33000000 + o.toNat)
  | .jr d a => some (0x34000000 + d.toNat * 0x80000 + a.toNat * 0x4000)
  | .brany m o => some (0x35000000 + m.toNat * 0x200000 + o.toNat)
  | .brall m o => some (0x36000000 + m.toNat * 0x200000 + o.toNat)
  | .brnone m o => some (0x37000000 + m.toNat * 0x200000 + o.toNat)
  | .trapS c => some (0x38000000 + c.toNat)
  | .eret => some (0x39000000)
  | .dbgbrk c => some (0x3A000000 + c.toNat)
  | .tlbinvPage a b => some (0x3B000000 + a.toNat * 0x4000 + b.toNat * 0x200)
  | .tlbinvAsid b => some (0x3B400000 + b.toNat * 0x200)
  | .tlbinvAll => some (0x3B800000)
  | .waitaddr d a b => some (0x3C000000 + d.toNat * 0x80000 + a.toNat * 0x4000 + b.toNat * 0x200)
  | .fence s k => some (0x3D000000 + s.toNat * 0x200000 + k.toNat * 0x80000)
  | .xfence s f t => some (0x3E000000 + s.toNat * 0x200000 + f.toNat * 0x10000 + t.toNat * 0x800)
  | .exitW => some (0x3F000000)
  | .vsetcfg n e b => some (0x40000000 + n.toNat * 0x400000 + e.toNat * 0x100000 + b.toNat * 0x20000)
  | .vsetvl d a g => some (0x41000000 + d.toNat * 0x80000 + a.toNat * 0x4000 + g.toNat * 0x2000)
  | .psetvl d a => some (0x42000000 + d.toNat * 0x80000 + a.toNat * 0x4000)
  | .reggive n => some (0x43000000 + n.toNat * 0x40000)
  | .regclaim n => some (0x44000000 + n.toNat * 0x40000)
  | .vfetch m o => some (0x45000000 + m.toNat * 0x800000 + o.toNat)
  | .vfetchReg m a => some (0x45400000 + m.toNat * 0x800000 + a.toNat * 0x10000)
  | .vcatch d => some (0x46000000 + d.toNat * 0x80000)
  | .abegin l p i c => some (0x47000000 + l.toNat * 0x40000 + p.toNat * 0x1000 + i.toNat * 0x800 + c.toNat * 0x400)
  | .thfetch m o => some (0x48000000 + m.toNat * 0x800000 + o.toNat)
  | .thfetchReg m b s => some (0x48400000 + m.toNat * 0x800000 + b.toNat * 0x10000 + s.toNat * 0x100)
  | .vpstop m => some (0x49000000 + m.toNat * 0x800000)
  | .velect d k v => some (0x4B000000 + d.toNat * 0x80000 + k.toNat * 0x10000 + v.toNat * 0x400)
  | .velectIdx d k => some (0x4B000200 + d.toNat * 0x80000 + k.toNat * 0x10000)
  | .vballot d k w => some (0x4C000000 + d.toNat * 0x80000 + k.toNat * 0x10000 + w.toNat * 0x200)
  | .mop d a b f s => some (0x4D000000 + d.toNat * 0x200000 + a.toNat * 0x40000 + b.toNat * 0x8000 + f.toNat * 0x1000 + s.toNat * 0x80)
  | .vxseed a => some (0x4E000000 + a.toNat * 0x4000)
  | .vxtake d => some (0x4F000000 + d.toNat * 0x80000)
  | .vaddI m d w a b => some (0x50000000 + m.toNat * 0x800000 + d.toNat * 0x20000 + w.toNat * 0x10000 + a.toNat * 0x100 + b.toNat)
  | .vsubI m d w a b => some (0x51000000 + m.toNat * 0x800000 + d.toNat * 0x20000 + w.toNat * 0x10000 + a.toNat * 0x100 + b.toNat)
  | .vmulI m d w a b => some (0x52000000 + m.toNat * 0x800000 + d.toNat * 0x20000 + w.toNat * 0x10000 + a.toNat * 0x100 + b.toNat)
  | .vmacI m d w a b => some (0x53000000 + m.toNat * 0x800000 + d.toNat * 0x20000 + w.toNat * 0x10000 + a.toNat * 0x100 + b.toNat)
  | .vminI m d w a b => some (0x54000000 + m.toNat * 0x800000 + d.toNat * 0x20000 + w.toNat * 0x10000 + a.toNat * 0x100 + b.toNat)
  | .vminIs m d w a b => some (0x55000000 + m.toNat * 0x800000 + d.toNat * 0x20000 + w.toNat * 0x10000 + a.toNat * 0x100 + b.toNat)
  | .vmaxI m d w a b => some (0x56000000 + m.toNat * 0x800000 + d.toNat * 0x20000 + w.toNat * 0x10000 + a.toNat * 0x100 + b.toNat)
  | .vmaxIs m d w a b => some (0x57000000 + m.toNat * 0x800000 + d.toNat * 0x20000 + w.toNat * 0x10000 + a.toNat * 0x100 + b.toNat)
  | .vand m d w a b => some (0x58000000 + m.toNat * 0x800000 + d.toNat * 0x20000 + w.toNat * 0x10000 + a.toNat * 0x100 + b.toNat)
  | .vor m d w a b => some (0x59000000 + m.toNat * 0x800000 + d.toNat * 0x20000 + w.toNat * 0x10000 + a.toNat * 0x100 + b.toNat)
  | .vxor m d w a b => some (0x5A000000 + m.toNat * 0x800000 + d.toNat * 0x20000 + w.toNat * 0x10000 + a.toNat * 0x100 + b.toNat)
  | .vshl m d w a b => some (0x5B000000 + m.toNat * 0x800000 + d.toNat * 0x20000 + w.toNat * 0x10000 + a.toNat * 0x100 + b.toNat)
  | .vshr m d w a b => some (0x5C000000 + m.toNat * 0x800000 + d.toNat * 0x20000 + w.toNat * 0x10000 + a.toNat * 0x100 + b.toNat)
  | .vshrA m d w a b => some (0x5D000000 + m.toNat * 0x800000 + d.toNat * 0x20000 + w.toNat * 0x10000 + a.toNat * 0x100 + b.toNat)
  | .vcmpI m d c a b => some (0x5E000000 + m.toNat * 0x800000 + d.toNat * 0x100000 + c.toNat * 0x20000 + a.toNat * 0x100 + b.toNat)
  | .vsel d w a b => some (0x5F000000 + d.toNat * 0x20000 + w.toNat * 0x10000 + a.toNat * 0x100 + b.toNat)
  | .vaddiI m d w a i => some (0x60000000 + m.toNat * 0x800000 + d.toNat * 0x20000 + w.toNat * 0x10000 + a.toNat * 0x100 + i.toNat)
  | .vandi m d w a i => some (0x61000000 + m.toNat * 0x800000 + d.toNat * 0x20000 + w.toNat * 0x10000 + a.toNat * 0x100 + i.toNat)
  | .vshli m d w a i => some (0x62000000 + m.toNat * 0x800000 + d.toNat * 0x20000 + w.toNat * 0x10000 + a.toNat * 0x100 + i.toNat)
  | .vshri m d w a i => some (0x63000000 + m.toNat * 0x800000 + d.toNat * 0x20000 + w.toNat * 0x10000 + a.toNat * 0x100 + i.toNat)
  | .vshriA m d w a i => some (0x64000000 + m.toNat * 0x800000 + d.toNat * 0x20000 + w.toNat * 0x10000 + a.toNat * 0x100 + i.toNat)
  | .vcmpiI m d c a i => some (0x65000000 + m.toNat * 0x800000 + d.toNat * 0x100000 + c.toNat * 0x20000 + a.toNat * 0x100 + i.toNat)
  | .vmovi m d w i => some (0x66000000 + m.toNat * 0x800000 + d.toNat * 0x20000 + w.toNat * 0x10000 + i.toNat)
  | .vmov m d w a => some (0x67000000 + m.toNat * 0x800000 + d.toNat * 0x20000 + w.toNat * 0x10000 + a.toNat * 0x100)
  | .viota m d w => some (0x68000000 + m.toNat * 0x800000 + d.toNat * 0x20000 + w.toNat * 0x10000)
  | .vxsend m a => some (0x69000000 + m.toNat * 0x800000 + a.toNat * 0x100)
  | .vperm m d w a b => some (0x6A000000 + m.toNat * 0x800000 + d.toNat * 0x20000 + w.toNat * 0x10000 + a.toNat * 0x100 + b.toNat)
  | .vcompress m d a => some (0x6B000000 + m.toNat * 0x800000 + d.toNat * 0x20000 + a.toNat * 0x100)
  | .vred m d a c => some (0x6C000000 + m.toNat * 0x800000 + d.toNat * 0x20000 + a.toNat * 0x100 + c.toNat)
  | .vscan m d a c => some (0x6D000000 + m.toNat * 0x800000 + d.toNat * 0x20000 + a.toNat * 0x100 + c.toNat)
  | .vnzscan m d a f => some (0x6E000000 + m.toNat * 0x800000 + d.toNat * 0x20000 + a.toNat * 0x100 + f.toNat)
  | .bmand m d w a b => some (0x6F000000 + m.toNat * 0x800000 + d.toNat * 0x20000 + w.toNat * 0x10000 + a.toNat * 0x100 + b.toNat)
  | .bmpos m d w a b => some (0x70000000 + m.toNat * 0x800000 + d.toNat * 0x20000 + w.toNat * 0x10000 + a.toNat * 0x100 + b.toNat)
  | .vaddF32 m d w a b => some (0x71000000 + m.toNat * 0x800000 + d.toNat * 0x20000 + w.toNat * 0x10000 + a.toNat * 0x100 + b.toNat)
  | .vsubF32 m d w a b => some (0x72000000 + m.toNat * 0x800000 + d.toNat * 0x20000 + w.toNat * 0x10000 + a.toNat * 0x100 + b.toNat)
  | .vmulF32 m d w a b => some (0x73000000 + m.toNat * 0x800000 + d.toNat * 0x20000 + w.toNat * 0x10000 + a.toNat * 0x100 + b.toNat)
  | .vfmaF32 m d w a b => some (0x74000000 + m.toNat * 0x800000 + d.toNat * 0x20000 + w.toNat * 0x10000 + a.toNat * 0x100 + b.toNat)
  | .vfmsF32 m d w a b => some (0x75000000 + m.toNat * 0x800000 + d.toNat * 0x20000 + w.toNat * 0x10000 + a.toNat * 0x100 + b.toNat)
  | .vdivF32 m d w a b => some (0x76000000 + m.toNat * 0x800000 + d.toNat * 0x20000 + w.toNat * 0x10000 + a.toNat * 0x100 + b.toNat)
  | .vsqrtF32 m d w a => some (0x77000000 + m.toNat * 0x800000 + d.toNat * 0x20000 + w.toNat * 0x10000 + a.toNat * 0x100)
  | .vminF32 m d w a b => some (0x78000000 + m.toNat * 0x800000 + d.toNat * 0x20000 + w.toNat * 0x10000 + a.toNat * 0x100 + b.toNat)
  | .vmaxF32 m d w a b => some (0x79000000 + m.toNat * 0x800000 + d.toNat * 0x20000 + w.toNat * 0x10000 + a.toNat * 0x100 + b.toNat)
  | .vcmpF32 m d c a b => some (0x7A000000 + m.toNat * 0x800000 + d.toNat * 0x100000 + c.toNat * 0x20000 + a.toNat * 0x100 + b.toNat)
  | .vexp2 m d w a => some (0x7B000000 + m.toNat * 0x800000 + d.toNat * 0x20000 + w.toNat * 0x10000 + a.toNat * 0x100)
  | .vrcp m d w a => some (0x7C000000 + m.toNat * 0x800000 + d.toNat * 0x20000 + w.toNat * 0x10000 + a.toNat * 0x100)
  | .vaddc m d w a b => some (0x7D000000 + m.toNat * 0x800000 + d.toNat * 0x20000 + w.toNat * 0x10000 + a.toNat * 0x100 + b.toNat)
  | .vaddF16 m d w a b => some (0x7E000000 + m.toNat * 0x800000 + d.toNat * 0x20000 + w.toNat * 0x10000 + a.toNat * 0x100 + b.toNat)
  | .vsubF16 m d w a b => some (0x7F000000 + m.toNat * 0x800000 + d.toNat * 0x20000 + w.toNat * 0x10000 + a.toNat * 0x100 + b.toNat)
  | .vmulF16 m d w a b => some (0x80000000 + m.toNat * 0x800000 + d.toNat * 0x20000 + w.toNat * 0x10000 + a.toNat * 0x100 + b.toNat)
  | .vfmaF16 m d w a b => some (0x81000000 + m.toNat * 0x800000 + d.toNat * 0x20000 + w.toNat * 0x10000 + a.toNat * 0x100 + b.toNat)
  | .vminF16 m d w a b => some (0x82000000 + m.toNat * 0x800000 + d.toNat * 0x20000 + w.toNat * 0x10000 + a.toNat * 0x100 + b.toNat)
  | .vmaxF16 m d w a b => some (0x83000000 + m.toNat * 0x800000 + d.toNat * 0x20000 + w.toNat * 0x10000 + a.toNat * 0x100 + b.toNat)
  | .vcmpF16 m d c a b => some (0x84000000 + m.toNat * 0x800000 + d.toNat * 0x100000 + c.toNat * 0x20000 + a.toNat * 0x100 + b.toNat)
  | .vaddE8m7 m d w a b => some (0x85000000 + m.toNat * 0x800000 + d.toNat * 0x20000 + w.toNat * 0x10000 + a.toNat * 0x100 + b.toNat)
  | .vsubE8m7 m d w a b => some (0x86000000 + m.toNat * 0x800000 + d.toNat * 0x20000 + w.toNat * 0x10000 + a.toNat * 0x100 + b.toNat)
  | .vmulE8m7 m d w a b => some (0x87000000 + m.toNat * 0x800000 + d.toNat * 0x20000 + w.toNat * 0x10000 + a.toNat * 0x100 + b.toNat)
  | .vfmaE8m7 m d w a b => some (0x88000000 + m.toNat * 0x800000 + d.toNat * 0x20000 + w.toNat * 0x10000 + a.toNat * 0x100 + b.toNat)
  | .vminE8m7 m d w a b => some (0x89000000 + m.toNat * 0x800000 + d.toNat * 0x20000 + w.toNat * 0x10000 + a.toNat * 0x100 + b.toNat)
  | .vmaxE8m7 m d w a b => some (0x8A000000 + m.toNat * 0x800000 + d.toNat * 0x20000 + w.toNat * 0x10000 + a.toNat * 0x100 + b.toNat)
  | .vcmpE8m7 m d c a b => some (0x8B000000 + m.toNat * 0x800000 + d.toNat * 0x100000 + c.toNat * 0x20000 + a.toNat * 0x100 + b.toNat)
  | .vcvt m d w a t s => some (0x8C000000 + m.toNat * 0x800000 + d.toNat * 0x20000 + w.toNat * 0x10000 + a.toNat * 0x100 + t.toNat * 0x10 + s.toNat)
  | .vld m d b x k p o => some (0x90000000 + m.toNat * 0x800000 + d.toNat * 0x20000 + b.toNat * 0x800 + x.toNat * 0x20 + k.toNat * 0x10 + p.toNat * 0x4 + o.toNat)
  | .vst m d l b x k p o => some (0x91000000 + m.toNat * 0x800000 + d.toNat * 0x20000 + l.toNat * 0x10000 + b.toNat * 0x800 + x.toNat * 0x20 + k.toNat * 0x10 + p.toNat * 0x4 + o.toNat)
  | .vgath m d b x k p o => some (0x92000000 + m.toNat * 0x800000 + d.toNat * 0x20000 + b.toNat * 0x800 + x.toNat * 0x20 + k.toNat * 0x10 + p.toNat * 0x4 + o.toNat)
  | .vgathC m d b x k p o => some (0x93000000 + m.toNat * 0x800000 + d.toNat * 0x20000 + b.toNat * 0x800 + x.toNat * 0x20 + k.toNat * 0x10 + p.toNat * 0x4 + o.toNat)
  | .vscat m d l b x k p o => some (0x94000000 + m.toNat * 0x800000 + d.toNat * 0x20000 + l.toNat * 0x10000 + b.toNat * 0x800 + x.toNat * 0x20 + k.toNat * 0x10 + p.toNat * 0x4 + o.toNat)
  | .vamo m d b x k p o => some (0x95000000 + m.toNat * 0x800000 + d.toNat * 0x20000 + b.toNat * 0x800 + x.toNat * 0x20 + k.toNat * 0x10 + p.toNat * 0x4 + o.toNat)
  | .bkred m d b x k p o => some (0x96000000 + m.toNat * 0x800000 + d.toNat * 0x20000 + b.toNat * 0x800 + x.toNat * 0x20 + k.toNat * 0x10 + p.toNat * 0x4 + o.toNat)
  | .wmlink n a b e => some (0x97000000 + n.toNat * 0x200000 + a.toNat * 0x10000 + b.toNat * 0x800 + e.toNat * 0x200)
  | .wmpub a b => some (0x98000000 + a.toNat * 0x80000 + b.toNat * 0x4000)
  | .bcopy d s c b p => some (0xA0000000 + d.toNat * 0x80000 + s.toNat * 0x4000 + c.toNat * 0x200 + b.toNat * 0x10 + p.toNat * 0x4)
  | .cmdb a b => some (0xA1000000 + a.toNat * 0x80000 + b.toNat * 0x4000)
  | .barinit a b => some (0xA2000000 + a.toNat * 0x80000 + b.toNat * 0x4000)
  | .barrive s a c => some (0xA3000000 + s.toNat * 0x200000 + a.toNat * 0x10000 + c.toNat)
  | .bwait a p => some (0xA4000000 + a.toNat * 0x80000 + p.toNat * 0x40000)
  | .wdq a b c => some (0xA5000000 + a.toNat * 0x80000 + b.toNat * 0x4000 + c.toNat * 0x200)
  | .macq => some (0xB0000000)
  | .mrel => some (0xB1000000)
  | .mma t a b f r e => some (0xB2000000 + t.toNat * 0x400000 + a.toNat * 0x10000 + b.toNat * 0x400 + f.toNat * 0x40 + r.toNat * 0x20 + e.toNat * 0x10)
  | .mmas t a b f r e p x => some (0xB3000000 + t.toNat * 0x400000 + a.toNat * 0x10000 + b.toNat * 0x400 + f.toNat * 0x40 + r.toNat * 0x20 + e.toNat * 0x10 + p.toNat * 0x2 + x.toNat)
  | .mscacc d s g f r p z => some (0xB4000000 + d.toNat * 0x400000 + s.toNat * 0x10000 + g.toNat * 0x400 + f.toNat * 0x40 + r.toNat * 0x20 + p.toNat * 0x8 + z.toNat * 0x4)
  | .mmovTileToReg t v r c => some (0xB5000000 + t.toNat * 0x400000 + v.toNat * 0x10000 + r.toNat * 0x20 + c.toNat * 0x4)
  | .mmovRegToTile t v r c => some (0xB5000010 + t.toNat * 0x400000 + v.toNat * 0x10000 + r.toNat * 0x20 + c.toNat * 0x4)
  | .mzero t r => some (0xB6000000 + t.toNat * 0x400000 + r.toNat * 0x20)
  | .mzeroAll r => some (0xB6000010 + r.toNat * 0x20)
  | .msave t a p => some (0xB7000000 + t.toNat * 0x400000 + a.toNat * 0x10000 + p.toNat * 0x4)
  | .mrest t a p => some (0xB8000000 + t.toNat * 0x400000 + a.toNat * 0x10000 + p.toNat * 0x4)
  | .mepi s o p l r c t u => some (0xB9000000 + s.toNat * 0x400000 + o.toNat * 0x10000 + p.toNat * 0x400 + l.toNat * 0x40 + r.toNat * 0x20 + c.toNat * 0x10 + t.toNat * 0x4 + u.toNat * 0x2)
  | .spawn d a b => some (0xC0000000 + d.toNat * 0x80000 + a.toNat * 0x4000 + b.toNat * 0x200)
  | .vspawn m d a b => some (0xC1000000 + m.toNat * 0x800000 + d.toNat * 0x100000 + a.toNat * 0x100 + b.toNat)
  | .yieldW a => some (0xC2000000 + a.toNat * 0x4000)
  | .contset i => some (0xC3000000 + i.toNat * 0x100000)
  | .btopup d a b c => some (0xC4000000 + d.toNat * 0x80000 + a.toNat * 0x4000 + b.toNat * 0x200 + c.toNat * 0x10)
  | .btopupZ d a => some (0xC4000008 + d.toNat * 0x80000 + a.toNat * 0x4000)
  | .repf c s l => some (0xC5000000 + c.toNat * 0x100000 + s.toNat * 0x4000 + l.toNat * 0x400)
  | .lanepwrWrite a => some (0x26000800 + a.toNat * 0x4000)
  | .trapvecWrite a => some (0x26000802 + a.toNat * 0x4000)
  | .tokrateWrite a => some (0x26000810 + a.toNat * 0x4000)
  | .tokdepthWrite a => some (0x26000811 + a.toNat * 0x4000)
  | .fflagsAccess wr r => some (if wr = 0 then 0x25000004 + r.toNat * 0x80000 else 0x26000004 + r.toNat * 0x4000)
  | .dbgctlWrite a => some (0x26000820 + a.toNat * 0x4000)
  | .quadPowerUpReady _ _ _ => none
  | .vectorQueueEntryEffect => none
  | .vfetchDispatch => none
  | .catchFetch => none
  | .resentFetch => none
  | .vcatchComplete => none
  | .earlyLoadSend _ => none
  | .threadBlockStart _ => none
  | .blockComplete _ => none
  | .entryStarvationIssue _ _ => none
  | .queueBlockSuspend _ => none
  | .crossElementUnblock _ _ => none
  | .queueDeadlockTrap => none
  | .vxtakeDeadlockTrap => none
  | .spillEngine => none
  | .refill _ => none
  | .regclaimGrant => none
  | .claimDeadlock => none
  | .forcedEntry => none
  | .graceTimerExpiry => none
  | .forcedFullSave => none
  | .preemptionRequest => none
  | .trapEntry => none
  | .handlerDeferLimit => none
  | .dispatch _ => none
  | .longDependence => none
  | .activeSetDisplace => none
  | .antiStarvation => none
  | .laneStarvation _ => none
  | .macqGrant => none
  | .matrixComplete => none
  | .loadReply => none
  | .amoReply _ => none
  | .vectorLoadReply _ => none
  | .atomicTimeout _ => none
  | .homeBankAccess _ => none
  | .pageWalkComplete _ => none
  | .tlbinvComplete => none
  | .l1SectorExpiry _ _ _ => none
  | .fenceComplete => none
  | .bcopyComplete _ _ _ => none
  | .markerFire => none
  | .bwaitComplete => none
  | .workDistributorRequest _ => none
  | .wdqAnswer _ => none
  | .linkedLoadAdmit _ => none
  | .waitaddrComplete => none
  | .waitaddrPoll => none
  | .tokenBucketFill _ _ _ _ => none
  | .eccCorrected _ _ _ _ => none
  | .eccUncorrectable _ _ => none
  | .errorRecordWindow _ _ _ => none
  | .debugStop _ _ _ => none
  | .debugResume _ _ _ => none
  | .debugRead _ _ _ _ _ _ => none
  | .debugWrite _ _ _ _ _ _ _ => none
  | .haltDie _ => none
  | .unhaltDie _ => none
  | .resetP => none
  | .explorationFlit _ => none
  | .explorationReport _ => none
  | .explorationQuietTimeout => none
  | .linkErrorRetry _ => none
  | .linkTimeout _ => none
  | .wearRecordWrite => none
  | .powerInterval => none
  | .powerGrant _ => none
  | .setwin _ _ _ _ _ => none
  | .clrwin _ _ _ _ _ => none
  | .setinb _ _ _ _ _ => none
  | .clrinb _ _ _ _ _ => none
  | .qpconn _ _ _ _ _ => none
  | .qpconnTimeout _ _ _ _ _ => none
  | .qpclose _ _ _ _ _ => none
  | .attest _ _ _ _ _ => none
  | .lifecycle _ _ _ _ _ => none
  | .setcap _ _ _ _ _ => none
  | .provision _ _ _ _ _ => none
  | .inboundRdmaWrite _ _ _ => none
  | .inboundRdmaRead _ _ _ => none
  | .inboundRdmaAtomic _ _ _ _ _ => none
  | .unassignedOpcode _ => none
  | .launchHeaderRead => none
  | .cmdbListRead => none
  | .topupCredit => none
  | .badcmd _ _ => none
  | .flashImageWrite _ _ _ _ => none
  | .powerFailure => none
  | .congestionNotificationPacket _ => none
  | .instructionFetchReply _ => none

/-- The word of an instruction. -/
def encode (i : Instr) : Option (BitVec 32) := (encodeNat i).map (BitVec.ofNat 32)

end Sys2Proof
end

