-- ==== Sys2Proof/Machine/State.lean ====
section
/-! DEFINITION. The state of the Herkar package as plain data, and the state after reset. -/

namespace Sys2Proof.Machine

/-- Why a step stops the machine. -/
inductive Fault where
  /-- RESET (R269, step 8) reads the entry header at a physical address at which no memory is installed (R156). Safe: the
  machine stops where the spec gives no memory to read. -/
  | absentAddress (pa : Nat)
  deriving DecidableEq, Repr

/-- Why a step has no answer. -/
inductive Refusal where
  /-- An instruction that the model gives no meaning: raised by no arm once every arm is modelled. Safe. -/
  | notModelled (mnemonic : String)
  /-- A row without encoding asked of a state in which the machine does not take that step (its rule's condition does not
  hold): raised by the events. Safe: the machine takes another step. -/
  | notEnabled (mnemonic : String)
  /-- A row without encoding asked of a die or cluster that the package does not have (R8, R14). Safe. -/
  | noSuchUnit (mnemonic : String)
  deriving DecidableEq, Repr

/-- The three ordering codes (R1). -/
inductive OrderCode where
  | p16 | p8 | m16
  deriving DecidableEq, Repr

/-- A launch header as its eight doublewords (R194). -/
structure Hdr where
  dw0 : U64 := 0
  dw1 : U64 := 0
  dw2 : U64 := 0
  dw3 : U64 := 0
  dw4 : U64 := 0
  dw5 : U64 := 0
  dw6 : U64 := 0
  dw7 : U64 := 0
  deriving DecidableEq, Repr

/-- The three states of a vector register or of the queue segment (R75). -/
inductive RegSt where
  | released | live | spilled
  deriving DecidableEq, Repr

/-- A vector register: its state, length tag, elements that are not zero in rising order (R76), the order of its last write
(R91), the elements that hold an uncorrectable error, and those written since it struck, for the error stays until the register is
written in full (R253). -/
structure VReg where
  st : RegSt := .released
  tag : Nat := 0
  elems : List (Nat × U64) := []
  age : Nat := 0
  bad : List Nat := []
  since : List Nat := []
  deriving DecidableEq, Repr

/-- The state of a VP that is not idle (R28, R38, R249): running a word of a block (run, word position, replay index, latched
THFETCH target with its word index, blocked on a cross-element queue), thread, parked, caught, or target pending. -/
inductive VpSt where
  | run (run pos rep : Nat) (target : Option (U64 × Nat)) (blocked : Bool)
  | thread (a : U64)
  | parked (a : U64)
  | caught (a : U64)
  | pend (a : U64) (iw : Nat)
  deriving DecidableEq, Repr

/-- How a block came to run (R36, R43, R48, R143). -/
inductive RunKind where
  | lockstep | catchGroup | resent
  | thread (lane : Nat)
  deriving DecidableEq, Repr

/-- A block in execution: the header fields read when it started (R323), its words, its reservation and what it has been
charged for so far (R128, R129), its issue steps in all and committed (R143), the last-use declarations not yet performed (R79), the releases held (R83), and the registers that were released when a word's first
issue step read and allocated them (R85, R392), each with its word; `vps` are the VPs that it started with (R143). -/
structure Run where
  id : Nat
  kind : RunKind
  addr : U64
  words : List (BitVec 32)
  idem : Bool := false
  rsvT : Nat := 0
  rsvS : Nat := 0
  total : Nat := 0
  steps : Nat := 0
  ticks : Nat := 0
  seen : List (Nat × Nat) := []
  sect : Nat := 0
  decl : List (Nat × Nat) := []
  held : List Nat := []
  fresh : List (Nat × Nat) := []
  vps : List Nat := []
  stopped : Bool := false
  suspended : Bool := false
  deriving DecidableEq, Repr

/-- A frontier entry (R41); its mask is the set of VPs in the thread state at its address. -/
structure Entry where
  prio : Nat
  addr : U64
  deriving DecidableEq, Repr

/-- A fetch that stands ahead of the queue (R38): one that VCATCH placed, or one re-sent after flush-and-restart; `before` as in
QEntry. -/
structure Fetch where
  addr : U64
  resent : Bool
  before : Bool := false
  deriving DecidableEq, Repr

/-- The access paths (R168). -/
inductive Path where
  | vec | gath | bulk | bank | matx
  deriving DecidableEq, Repr

/-- Where an access goes once translated (R145): package memory, a network window at an offset, the team's scratchpad. -/
inductive Target where
  | pkg (pa : Nat)
  | win (w off : Nat)
  | sp (off : Nat)
  deriving DecidableEq, Repr

/-- What an element of a load sent early found (R154): its value, or the fault that is kept until the load takes effect; or, where the
debugger has since written the register by force, what the register holds (R259). -/
inductive Early where
  | value (g : Target) (x : U64)
  | fault (c : BitVec 8)
  | forced (g : Target) (x : U64)
  deriving DecidableEq, Repr

/-- An entry of the vector instruction queue (R38): the word, its address, the scalar operands read at issue (R405), the
bound deducted at issue (R128), the load buffer of an early load (R154) by element and address, the words and scalars that MEPI captured (R229), and whether it was queued before the
forced entry of the continuation that runs (R142). -/
structure QEntry where
  word : BitVec 32
  pc : U64
  x : U64 := 0
  y : U64 := 0
  z : U64 := 0
  rsvT : Nat := 0
  rsvS : Nat := 0
  early : Option (List (Nat × Early)) := none
  cap : List (BitVec 32) := []
  capS : List (BitVec 32) := []
  before : Bool := false
  deriving DecidableEq, Repr

/-- What a request does at its home (R158): a store, or a bank operation with operand and comparand (R326). -/
inductive ReqOp where
  | store (v : U64)
  | bank (op : Nat) (x c : U64)
  deriving DecidableEq, Repr

/-- Where the result of a request or load lands: nowhere, in a scalar register, in an element over VL, or in a VP's own element and its
latches (R86, R396). -/
inductive Dst where
  | none
  | sreg (r : BitVec 5)
  | elem (v i : Nat)
  | loc (v i : Nat)
  deriving DecidableEq, Repr

/-- A store or atomic that has taken effect and is not yet performed at its home (R170). `grp` numbers the instruction, since
elements of one vector store may become visible in any order; `sseq` is its place in the wave's order of accesses; `acq` and
`rel` mark an acquire and a release (R175), `drop` an acquire that drops L1 (R177); `src` names the load, by its place in the order, and the element whose value a store still waits for (R173); `gath` marks an access
of the gather engine (R155). -/
structure Req where
  sseq : Nat
  grp : Nat
  path : Path
  tgt : Target
  size : Nat
  op : ReqOp
  dst : Dst := .none
  rel : Bool := false
  acq : Bool := false
  drop : Bool := false
  va : U64 := 0
  src : Option (Nat × Nat) := none
  gath : Bool := false
  deriving DecidableEq, Repr

/-- A load that has taken effect and is not yet performed: a scalar load of LD, or one element of a vector load, which may
wait for the watermark of its link (R187); `direct` is cache policy 3, `elem` the number of its element. -/
structure Load where
  sseq : Nat
  path : Path
  tgt : Target
  size : Nat
  sgn : Bool := false
  dst : Dst
  va : U64
  linked : Option Nat := none
  grp : Nat := 0
  shared : Bool := false
  acq : Bool := false
  drop : Bool := false
  pol : Nat := 0
  direct : Bool := false
  gath : Bool := false
  elem : Nat := 0
  deriving DecidableEq, Repr

/-- The reply of an atomic on its way back (R327, R396). -/
structure Reply where
  dst : Dst
  val : U64
  size : Nat
  tgt : Target := .sp 0
  deriving DecidableEq, Repr

/-- Why the control thread could not issue its instruction: a full vector instruction queue (R38), a scalar result that is outstanding
(R473), an empty token bucket of a class (R191), a full bulk engine (R336), a translation (R166), instruction words (R206), a fence whose
ordering wait goes on (R178). -/
inductive Stall where
  | queue
  | scalar (r : BitVec 5)
  | token (c : Nat)
  | engine
  | walk
  | fetch
  | fence
  deriving DecidableEq, Repr

/-- The control thread's wait: an instruction issued and charged whose condition does not hold yet (`phase` tells the parts
of a wait apart), or an instruction that could not issue. -/
inductive Wait where
  | issued (i : Instr) (phase : Nat)
  | stall (why : Stall)
  deriving DecidableEq, Repr

/-- A trap raised and not yet entered (R236); `spill` marks one of a spill or refill (R94). -/
structure PTrap where
  src : Nat
  cause : BitVec 8
  iw : Nat := 0
  vp : Nat := 0
  val : U64 := 0
  vps : List Nat := []
  spill : Bool := false
  deriving DecidableEq, Repr

/-- A watermark link (R185) with its region base. -/
structure Wm where
  v : Bool := false
  cur : Bool := false
  esz : BitVec 2 := 0
  waddr : BitVec 60 := 0
  base : U64 := 0
  deriving DecidableEq, Repr

/-- The epilogue program in force (R229): the MEPI word, the captured words and the captured scalars. -/
structure Mepi where
  word : BitVec 32
  words : List (BitVec 32)
  scal : List (BitVec 32)
  deriving DecidableEq, Repr

/-- DBGCTL (R256) and what the debugger has stopped (R257): the wave, or VPs; and who passes the breakpoint once after its stop there, the
control thread or VPs. -/
structure Dbg where
  ena : Bool := false
  laneMode : Bool := false
  single : Bool := false
  baddr : BitVec 58 := 0
  wmode : BitVec 2 := 0
  stopped : Bool := false
  vps : List Nat := []
  pass : Bool := false
  passVps : List Nat := []
  deriving DecidableEq, Repr

/-- The trap registers of a wave (R235), the VPs of the recorded issue step (R241), and whether it is the trap of a
spill or refill (R94). -/
structure TrapRegs where
  epc : BitVec 58 := 0
  inh : Bool := false
  ppriv : Bool := false
  rskip : Bool := false
  src : BitVec 2 := 0
  iw : BitVec 7 := 0
  vp : BitVec 14 := 0
  cause : BitVec 8 := 0
  eval : U64 := 0
  issue : List Nat := []
  spill : Bool := false
  deriving DecidableEq, Repr

/-- The sticky bits of WSTAT and WCTL (R60, R61), and SERIAL and INCONT. -/
structure Wctl where
  serial : Bool := false
  incont : Bool := false
  dualfix : Bool := false
  ntrans : Bool := false
  short : Bool := false
  latinv : Bool := false
  rdrel : Bool := false
  dual : Bool := false
  lattrap : Bool := false
  rdreltrap : Bool := false
  deriving DecidableEq, Repr

/-- The budget and continuation registers (R125, R133, R138) and the timers and requests that act on them: `preemptSent` is a
request on its way to the cluster, `preempt` one that is to be taken at the next boundary (R142), `deferred` one that a trap or handler
mode defers (R239, R247), `asked` tells that one was sent
since the last placement (R346). -/
structure Budget where
  ibgt : U64 := 0
  mbgt : U64 := 0
  cidx : BitVec 4 := 0
  xpc : BitVec 60 := 0
  xcause : BitVec 8 := 0
  grace : Bool := false
  graceHit : Bool := false
  exhaust : Option (BitVec 8) := none
  preempt : Bool := false
  preemptSent : Bool := false
  deferred : Bool := false
  asked : Bool := false
  remT : U64 := 0
  remS : U64 := 0
  pendT : U64 := 0
  pendS : U64 := 0
  carveT : Option U64 := none
  carveS : Option U64 := none
  deriving DecidableEq, Repr

/-- The vector configuration (R62 to R69) and the arithmetic registers FRM, FFLAGS, VSTART, NZCNT, PVOFF. -/
structure Vcfg where
  nreg : Nat := 0
  nregc : BitVec 2 := 0
  ewc : BitVec 2 := 0
  blkc : BitVec 3 := 0
  share : Nat := 0
  maxvl : Nat := 0
  vl : Nat := 0
  quota : Nat := 0
  qmax : Nat := 0
  floor : Nat := 0
  frm : BitVec 2 := 0
  fflags : BitVec 5 := 0
  vstart : BitVec 6 := 0
  nzcnt : BitVec 14 := 0
  pvoff : U64 := 0
  deriving DecidableEq, Repr

/-- An entry of the cross-element queues (R51): the boundary whose storage holds it, the addressed VP, the value. -/
structure XEntry where
  bnd : Nat
  vp : Nat
  val : U64
  deriving DecidableEq, Repr

/-- Where a wave is (R209): resident on a cluster of a die, on the resume list of a die in an order of leaving, or gone from
a cluster of a die. -/
inductive Place where
  | resident (die cl : Nat)
  | saved (die order : Nat)
  | gone (die cl : Nat)
  deriving DecidableEq, Repr

/-- An issue of VSPAWN whose header reads have not arrived (R200): mask register, run, the issue's VPs, and each active VP's
header address and argument. -/
structure Offers where
  md : BitVec 3
  run : Nat
  key : Nat
  vps : List Nat
  list : List (Nat × U64 × U64)
  deriving DecidableEq, Repr

/-- A command of the bulk engine (R336): `sent` counts the sectors it has taken tokens for (R191). -/
structure Bulk where
  wave : Nat
  team : Nat
  asid : BitVec 16
  sup : Bool
  dst : U64
  src : U64
  count : Nat
  bar : Option U64
  pol : Nat := 0
  sent : Nat := 0
  deriving DecidableEq, Repr

/-- A wave (R25 to R28): its control thread, its VPs and everything the spec gives it. -/
structure Wave where
  id : Nat := 0
  place : Place := .gone 0 0
  active : Bool := false
  hdr : Hdr := {}
  team : Nat := 0
  member : Nat := 0
  anc : List Nat := []
  asid : BitVec 16 := 0
  sup : Bool := false
  depth : Nat := 0
  limit : Nat := 0
  wid : U64 := 0
  stamp : Nat := 0
  base : Nat := 0
  placed : Bool := false
  s : Vector U64 32 := Vector.replicate 32 0
  pc : U64 := 0
  cfg : Vcfg := {}
  ctl : Wctl := {}
  bud : Budget := {}
  trp : TrapRegs := {}
  dbg : Dbg := {}
  wm : List (Nat × Wm) := []
  masks : Vector (BitVec 8192) 8 := Vector.replicate 8 0
  vregs : List (Nat × VReg) := []
  qseg : RegSt := .released
  qage : Nat := 0
  xq : List XEntry := []
  latches : List (Nat × List U64) := []
  vps : List (Nat × VpSt) := []
  runs : List Run := []
  frontier : List Entry := []
  serialVp : Option Nat := none
  vq : List QEntry := []
  fetches : List Fetch := []
  mat : List QEntry := []
  markers : List QEntry := []
  offers : Option Offers := none
  cmdb : List Bulk := []
  tiles : List (Nat × BitVec 32) := []
  everOwned : Bool := false
  wantsMat : Bool := false
  mepi : Option Mepi := none
  loads : List Load := []
  vland : List Load := []
  reqs : List Req := []
  replies : List Reply := []
  wait : Option Wait := none
  fence : Option Instr := none
  stallLong : Bool := false
  traps : List PTrap := []
  badRows : List (Nat × Nat) := []
  want : List Nat := []
  segNeed : Nat := 0
  spillBad : Bool := false
  saveFault : Bool := false
  leaving : Bool := false
  savePc : U64 := 0
  doubleCause : Option (BitVec 8 × U64) := none
  recCause : Option (BitVec 8) := none
  deriving DecidableEq, Repr

/-- A team (R196, R205): where its scratchpad is resident, its contents, TFREE, and how many members have not exited. -/
structure Team where
  die : Nat := 0
  cl : Option Nat := none
  size : Nat := 0
  kib : Nat := 0
  base : U64 := 0
  asid : BitVec 16 := 0
  sup : Bool := false
  tfree : Nat := 0
  left : Nat := 0
  placed : Bool := false
  sp : List Host.Cell := []
  bad : List Nat := []
  deriving DecidableEq, Repr

/-- How a walk ends (R163): the leaf entry with its page size in bits, or the cause of a fault. -/
inductive WalkEnd where
  | leaf (e b : Nat)
  | fault (c : BitVec 8)
  deriving DecidableEq, Repr

/-- An entry of the miss table (R166): the address space and the 512 KiB region, its place in the order of arrival, the waves that wait on
it with the agent of each (0 the control thread, 1 the vector queue, 2 + j lane j), and once the walk has ended its end. -/
structure Miss where
  asid : BitVec 16
  region : Nat
  seq : Nat
  waiters : List (Nat × Nat) := []
  done : Option WalkEnd := none
  deriving DecidableEq, Repr

/-- A table entry that the walkers keep (R164): its address space, level and virtual prefix, and the entry. -/
structure WalkEntry where
  asid : BitVec 16
  level : Nat
  vpre : Nat
  entry : U64
  deriving DecidableEq, Repr

/-- Instruction words on their way (R206): the wave that waits, the lane in whose thread-fetch cache they land, none for the AIB block cache,
and the 32-byte sector. -/
structure FetchMiss where
  wave : Nat
  lane : Option Nat
  sector : Nat
  deriving DecidableEq, Repr

/-- A cached translation (R164): the virtual page, its size in bits, its tag and the leaf entry. -/
structure TlbEntry where
  asid : BitVec 16
  vpage : Nat
  bits : Nat
  leaf : U64
  deriving DecidableEq, Repr

/-- A tenant's entry of a token table (R191), in the order of writing. -/
structure TokEntry where
  asid : BitVec 16
  bulk : BitVec 16
  demand : BitVec 16
  sync : BitVec 16
  deriving DecidableEq, Repr

/-- A token table (R191): the default entry, the tenants' entries oldest first, the tenant of the last CRWR. -/
structure TokTable where
  dflt : TokEntry := ⟨0xFFFF, 0xFFFF, 0xFFFF, 0xFFFF⟩
  tab : List TokEntry := []
  last : BitVec 16 := 0xFFFF
  deriving DecidableEq, Repr

/-- A cluster (R15): the carve of its local store (R148), quad power (R101), the matrix unit's ownership (R211) with
the tiles that it keeps of a wave that has left (R212), its L1, its AIB block cache
and the thread-fetch caches of its lanes, its TLB, miss table and walker cache, its bulk engine, its token buckets and its counters. -/
structure Cluster where
  spare : Bool := false
  ul1 : Nat := 16
  usp : Nat := 16
  uext : Nat := 0
  qon : BitVec 4 := 0xF
  qpend : BitVec 4 := 0
  owner : Option Nat := none
  tileOf : Option Nat := none
  kept : List (Nat × BitVec 32) := []
  keptBad : List (Nat × Nat) := []
  macq : List Nat := []
  l1 : List (Nat × BitVec 256) := []
  icache : List (Nat × BitVec 32) := []
  tcache : List (Nat × List (Nat × BitVec 32)) := []
  fmiss : List FetchMiss := []
  tlb : List TlbEntry := []
  misses : List Miss := []
  walker : List WalkEntry := []
  bulk : List Bulk := []
  rate : TokTable := {}
  depth : TokTable := {}
  tokens : List (Nat × Int) := []
  spills : Nat := 0
  refills : Nat := 0
  deriving DecidableEq, Repr

/-- A queued launch (R202), with the privilege of its waves (R198). -/
structure Launch where
  hdr : Hdr
  arg : U64
  depth : Nat
  limit : Nat
  asid : BitVec 16
  sup : Bool := false
  carves : List (U64 × U64) := []
  next : Nat := 0
  anc : List Nat := []
  deriving DecidableEq, Repr

/-- A compute die: ENCL (R12), TRAPVEC (R234), HALT (R260), its task queues in one list, oldest first (R202), and its
counters of stamps and of leaving order, and what boot substituted (R14, R18, R19): the positions that another site than the one of
their number serves, and the lane of a position's cluster that the spare lane serves. -/
structure Die where
  encl : Nat := 64
  sites : List (Nat × Nat) := []
  spareLanes : List (Nat × Nat) := []
  trapvec : BitVec 58 := 0
  halted : Bool := false
  tasks : List Launch := []
  stamps : Nat := 0
  orders : Nat := 0
  deriving DecidableEq, Repr

/-- A work-distributor request (R215) of a wave: sent, or answered and on its way back; `va` is the descriptor's address. -/
structure Wdq where
  wave : Nat
  team : Nat
  desc : Nat
  ans : Nat
  bar : Nat
  answer : Option U64 := none
  va : U64 := 0
  deriving DecidableEq, Repr

/-- A network window descriptor (R279). -/
structure Window where
  valid : Bool := false
  port : BitVec 3 := 0
  qp : BitVec 24 := 0
  base : U64 := 0
  len : U64 := 0
  key : BitVec 32 := 0
  rights : BitVec 3 := 0
  deriving DecidableEq, Repr

/-- An inbound region (R278, R281). -/
structure Region where
  valid : Bool := false
  base : U64 := 0
  len : U64 := 0
  rights : BitVec 3 := 0
  key : BitVec 32 := 0
  deriving DecidableEq, Repr

/-- A connected queue pair (R277, R281), with its sending rate. -/
structure Qp where
  port : BitVec 3 := 0
  gid0 : U64 := 0
  gid1 : U64 := 0
  remote : BitVec 24 := 0
  rate : Nat := 0
  deriving DecidableEq, Repr

/-- A firmware image in flash (R268): whether its write was carried to its end (R270), the security version, the physical address of
the entry header, the public key, the signature, and the body. -/
structure Image where
  whole : Bool
  version : BitVec 32
  entry : U64
  key : List Byte
  sig : List Byte
  body : List Byte
  deriving DecidableEq, Repr

/-- Whether the package runs work (R19, R264, R269, R270): it does, boot explores its links, exploration has ended and boot goes
on, boot stopped at step 1, step 8 found no valid entry header, it is held out of service, or it has no power (R272). -/
inductive Service where
  | running
  | exploring
  | explored
  | bootFail
  | noLaunch
  | heldOut (reason : String)
  | off
  deriving DecidableEq, Repr

/-- An exploration flit in flight (R263): the node it travels to and the egress ports taken so far. -/
structure Flit where
  dest : Nat
  path : List Nat
  deriving DecidableEq, Repr

/-- A die's report (R263): the node, its kind, its name and its neighbours' names by port. -/
structure Report where
  node : Nat
  kind : Nat
  name : U64
  near : List (Nat × U64)
  deriving DecidableEq, Repr

/-- Flood exploration (R263 to R265): the draw of the names, flits, reports on their way, reports received, which dies have
seen a flit, whether it runs. -/
structure Explore where
  on : Bool := false
  draw : Nat := 0
  flits : List Flit := []
  sent : List Report := []
  got : List Report := []
  visited : List Nat := []
  deriving DecidableEq, Repr

/-- The power arbiter (R283, R284): the interval's number, the intervals of the present run above the sustained current, the rest
still owed, the grant on its way to each die and the one each die keeps, the clusters that had matrix work in this interval or the
one before, and those that have started it in this interval after none. -/
structure Power where
  interval : Nat := 0
  above : Nat := 0
  rest : Nat := 0
  grants : List (Nat × Nat) := []
  limits : List (Nat × Nat) := []
  recent : List Nat := []
  started : List Nat := []
  deriving DecidableEq, Repr

/-- The wear record (R271, R272): the counters by physical unit, the units that failed a self-test or their training, and the units
retired for good. -/
structure WearRecord where
  counts : List (Nat × Nat) := []
  tests : List Nat := []
  retired : List Nat := []
  deriving DecidableEq, Repr

/-- A management command that has been taken and waits its turn (R280): whether the host sent it, the sequence number of a mailbox
command, its code and arguments. -/
structure Command where
  host : Bool
  req : U64
  code : U64
  a0 : U64
  a1 : U64
  a2 : U64
  a3 : U64
  deriving DecidableEq, Repr

/-- An inbound RDMA WRITE message under way (R278): its queue pair, its region's index, its parts that are not stored yet, none
across an aligned 8-byte unit, and the sectors that it covers whole (R254). -/
structure Inbound where
  qp : Nat
  region : Nat
  parts : List (Nat × List Byte)
  whole : List Nat := []
  deriving DecidableEq, Repr

/-- IO die 0 and what the package holds outside its dies (chapter 11). -/
structure Package where
  code : OrderCode := .p16
  service : Service := .bootFail
  lifecycle : BitVec 2 := 2
  keyNo : Option Nat := some 0
  minVersion : BitVec 32 := 0
  version : BitVec 32 := 0
  flash : Option Image := none
  resets : BitVec 32 := 0
  downLinks : List Nat := []
  failedLinks : List Nat := []
  explore : Explore := {}
  wear : WearRecord := {}
  wearFlash : WearRecord := {}
  bankSites : List (Nat × Nat) := []
  endorsed : Option Nat := some 0
  cmds : List Command := []
  inbound : List Inbound := []
  windowEcc : List Nat := []
  windows : List (Nat × Window) := []
  regions : List (Nat × Region) := []
  qps : List (Nat × Qp) := []
  cap : BitVec 16 := 0
  power : Power := {}
  ethUp : Bool := false
  pfc : Bool := false
  mgmt : List String := []
  hostStatus : Option (Nat × U64) := none
  rdmaOut : List Byte := []
  nak : Bool := false
  debugOut : Option (String × U64) := none
  deriving DecidableEq, Repr

/-- Who executes an instruction: the control thread of the focused wave, or a lane for VPs of one of its runs. -/
inductive Agent where
  | control
  | lane (run : Nat) (vps : List Nat)
  deriving DecidableEq, Repr

/-- What may step next: the control thread of the focused wave, one of its lanes, or a row without encoding. -/
inductive Act where
  | control
  | lane (j : Nat)
  | event (i : Instr)
  deriving DecidableEq, Repr

/-- One entry of the agenda: the wave to focus and what steps. -/
structure Choice where
  wave : Nat
  act : Act
  deriving DecidableEq, Repr

/-- The machine: the focused wave and the others, clusters, dies, teams, package memory (unlisted bytes read 0, R274), the
work distributor's requests, poisoned sectors, the package, and the MODEL's own fields: who executes, the agenda of what
steps next, the counter that numbers free values, and the next wave and team number. -/
structure State where
  w : Wave := {}
  others : List Wave := []
  clusters : List (Nat × Cluster) := []
  dies : List (Nat × Die) := []
  teams : List (Nat × Team) := []
  mem : List Host.Cell := []
  wdq : List Wdq := []
  poison : List Nat := []
  pkg : Package := {}
  agent : Agent := .control
  agenda : List Choice := []
  free : Nat := 0
  nextWave : Nat := 1
  nextTeam : Nat := 1
  sseq : Nat := 0
  deriving DecidableEq, Repr

/-- The machine right after reset (R274: every memory, queue and register zero; R15, R148, R101, R191 for the rest). No
firmware image is in flash (DESIGN CHOICE, log entry 4), so boot stops at step 1 with BOOTFAIL and places no wave (R269, R270):
a program comes in as log entry 1 says. -/
def State.reset : State := { pkg := { resets := 1, mgmt := ["BOOTFAIL"] } }

end Sys2Proof.Machine
end

