-- ==== Sys2Proof/Machine/Tables.lean ====
section
/-! DEFINITION. Sparse tables, package memory as bytes, the units of the package and the physical parts that serve them (R1, R14, R17 to
R19, R156, R254, R271). -/

namespace Sys2Proof.Machine

/-- The answer of one instruction. -/
abbrev Out := Host.Outcome State Fault Refusal

/-- The value of a sparse table at a key; `d` is what an unlisted key reads as. -/
def spGet {α : Type} (d : α) : List (Nat × α) → Nat → α
  | [], _ => d
  | (k', v') :: t, k => if k = k' then v' else if k < k' then d else spGet d t k

/-- A sparse table with one key changed; writing `d` removes the entry, so equal tables are equal lists. -/
def spSet {α : Type} [DecidableEq α] (d : α) : List (Nat × α) → Nat → α → List (Nat × α)
  | [], k, v => if v = d then [] else [(k, v)]
  | (k', v') :: t, k, v =>
    if k < k' then (if v = d then (k', v') :: t else (k, v) :: (k', v') :: t)
    else if k = k' then (if v = d then t else (k, v) :: t)
    else (k', v') :: spSet d t k v

/-- The canonical form of a sparse table: keys strictly rising, none below `lo`, no value equal to `d`. -/
def spWf {α : Type} [DecidableEq α] (d : α) : Nat → List (Nat × α) → Bool
  | _, [] => true
  | lo, (k, v) :: t => decide (lo ≤ k) && !decide (v = d) && spWf d (k + 1) t

/-- The entry of a partial table. -/
def lkGet {α : Type} : List (Nat × α) → Nat → Option α
  | [], _ => none
  | (k', v') :: t, k => if k = k' then some v' else lkGet t k

/-- A partial table with one key set, in rising order. -/
def lkSet {α : Type} : List (Nat × α) → Nat → α → List (Nat × α)
  | [], k, v => [(k, v)]
  | (k', v') :: t, k, v =>
    if k < k' then (k, v) :: (k', v') :: t else if k = k' then (k, v) :: t else (k', v') :: lkSet t k v

/-- A partial table with one key removed. -/
def lkDel {α : Type} (l : List (Nat × α)) (k : Nat) : List (Nat × α) := l.filter (fun e => e.1 != k)

/-- The canonical form of package memory: addresses strictly rising and no listed byte 0, since an unlisted byte reads 0. -/
abbrev Memory.wf (m : List Host.Cell) : Bool := spWf (0 : Byte) 0 m

/-- One byte of memory; a byte that nothing has written reads 0 (R274; log entry 2). -/
def Memory.read (m : List Host.Cell) (a : Nat) : Byte := spGet (0 : Byte) m a

/-- Memory with one byte written. -/
def Memory.write (m : List Host.Cell) (a : Nat) (b : Byte) : List Host.Cell := spSet (0 : Byte) m a b

/-- `n` bytes from an address, little-endian (R3). -/
def Memory.readN (m : List Host.Cell) (a : Nat) : Nat → Nat
  | 0 => 0
  | n + 1 => (Memory.read m a).toNat + 256 * Memory.readN m (a + 1) n

/-- `n` bytes written little-endian. -/
def Memory.writeN (m : List Host.Cell) (a : Nat) : Nat → Nat → List Host.Cell
  | 0, _ => m
  | n + 1, v => Memory.writeN (Memory.write m a (BitVec.ofNat 8 v)) (a + 1) n (v / 256)

/-- A list of bytes written from an address. -/
def Memory.writeBytes (m : List Host.Cell) (a : Nat) : List Byte → List Host.Cell
  | [] => m
  | b :: t => Memory.writeBytes (Memory.write m a b) (a + 1) t

/-- `n` bytes from an address, as a list. -/
def Memory.bytes (m : List Host.Cell) (a : Nat) : Nat → List Byte
  | 0 => []
  | n + 1 => Memory.read m a :: Memory.bytes m (a + 1) n

/-- The key of a cluster in the table of clusters. -/
def clKey (die cl : Nat) : Nat := die * 64 + cl

/-- A cluster of the package. -/
def State.cluster (s : State) (die cl : Nat) : Cluster := spGet {} s.clusters (clKey die cl)

/-- The package with one cluster changed. -/
def State.setCluster (s : State) (die cl : Nat) (c : Cluster) : State :=
  { s with clusters := spSet {} s.clusters (clKey die cl) c }

/-- A compute die. -/
def State.die (s : State) (d : Nat) : Die := spGet {} s.dies d

/-- The package with one die changed. -/
def State.setDie (s : State) (d : Nat) (x : Die) : State := { s with dies := spSet {} s.dies d x }

/-- A team. -/
def State.team (s : State) (t : Nat) : Team := spGet {} s.teams t

/-- The package with one team changed. -/
def State.setTeam (s : State) (t : Nat) (x : Team) : State := { s with teams := spSet {} s.teams t x }

/-- The package with the focused wave changed. -/
def State.setW (s : State) (w : Wave) : State := { s with w := w }

/-- The die of a wave: where it is resident, or on whose resume list it waits (R202). -/
def Wave.die (w : Wave) : Nat :=
  match w.place with
  | .resident d _ => d
  | .saved d _ => d
  | .gone d _ => d

/-- The cluster of a resident wave, or the one that a removed wave was on. -/
def Wave.cl (w : Wave) : Nat :=
  match w.place with
  | .resident _ c => c
  | .gone _ c => c
  | .saved _ _ => 0

/-- Whether a wave is resident. -/
def Wave.isResident (w : Wave) : Bool :=
  match w.place with
  | .resident _ _ => true
  | _ => false

/-- Whether a wave is on a resume list. -/
def Wave.isSaved (w : Wave) : Bool :=
  match w.place with
  | .saved _ _ => true
  | _ => false

/-- Whether a wave has ended. -/
def Wave.isGone (w : Wave) : Bool :=
  match w.place with
  | .gone _ _ => true
  | _ => false

/-- A target moved by an offset. -/
def Target.shift : Target → Nat → Target
  | .pkg pa, k => .pkg (pa + k)
  | .sp off, k => .sp (off + k)
  | .win w off, k => .win w (off + k)

/-- Every wave, the focused one first. -/
def State.waves (s : State) : List Wave := s.w :: s.others

/-- The cluster of the focused wave. -/
def State.myCluster (s : State) : Cluster := s.cluster s.w.die s.w.cl

/-- The package with the focused wave's cluster changed. -/
def State.setMyCluster (s : State) (c : Cluster) : State := s.setCluster s.w.die s.w.cl c

/-- The team of the focused wave. -/
def State.myTeam (s : State) : Team := s.team s.w.team

/-- The count of compute dies (R1). -/
def State.ndie (s : State) : Nat :=
  match s.pkg.code with
  | .p8 => 8
  | _ => 16

/-- Installed memory in bytes (R156). -/
def State.installed (s : State) : Nat :=
  match s.pkg.code with
  | .p8 => 0x6000000000
  | _ => 0xC000000000

/-- Whether a cluster exists: its die is in the package and its logical number is below ENCL (R14). -/
def State.hasCluster (s : State) (die cl : Nat) : Bool := decide (die < s.ndie ∧ cl < (s.die die).encl)

/-- The memory die that is the home of a physical address (R156). -/
def homeDie (s : State) (pa : Nat) : Nat :=
  match s.pkg.code with
  | .p8 => (List.range 12).foldl (fun x k => x ^^^ bits (pa / 1024) (3 * k) 3) 0
  | _ => (List.range 9).foldl (fun x k => x ^^^ bits (pa / 1024) (4 * k) 4) 0

/-- The granule's number inside its memory die (R156). -/
def dieGranule (s : State) (pa : Nat) : Nat :=
  match s.pkg.code with
  | .p8 => bits (pa / 1024) 3 33
  | _ => bits (pa / 1024) 4 32

/-- The L2 bank of a physical address (R156). -/
def homeBank (s : State) (pa : Nat) : Nat := dieGranule s pa % 384

/-- Whether the 32-byte sector of a physical address is poisoned (R254). -/
def State.poisoned (s : State) (pa : Nat) : Bool := s.poison.contains (pa / 32)

/-! ### Physical parts (R14, R18, R19, R271) -/

/-- The physical site that serves a cluster position (R14): the site of the same number unless boot has substituted another one. -/
def State.siteOf (s : State) (die cl : Nat) : Nat := (lkGet (s.die die).sites cl).getD cl

/-- The physical lane that serves a lane of a cluster: the spare lane, 16, where boot has substituted it. -/
def State.physLane (s : State) (die cl lane : Nat) : Nat := if lkGet (s.die die).spareLanes cl = some lane then 16 else lane

/-- The physical bank site that serves an L2 bank of a memory die (R17): the site of the same number unless boot has substituted one of
the eight spare ones. -/
def State.physBank (s : State) (mem bank : Nat) : Nat := (lkGet s.pkg.bankSites (mem * 512 + bank)).getD bank

/-- The key of a physical lane's mismatches in the wear record (R255). -/
def wearLane (die site lane : Nat) : Nat := 0x1000000 + die * 8192 + site * 64 + lane

/-- The key of a physical lane's uncorrectable register errors. -/
def wearReg (die site lane : Nat) : Nat := 0x2000000 + die * 8192 + site * 64 + lane

/-- The key of a unit's corrected errors in a cluster site (unit codes 1 to 6 of R253). -/
def wearUnit (die site u : Nat) : Nat := 0x3000000 + (die * 128 + site) * 8 + u

/-- The key of a physical L2 bank's corrected errors. -/
def wearBank (mem bank : Nat) : Nat := 0x4000000 + mem * 512 + bank

/-- The key of a physical L2 bank's uncorrectable errors. -/
def wearBankBad (mem bank : Nat) : Nat := 0x5000000 + mem * 512 + bank

/-- The key of a lane of a UCIe module (R261: 16 modules a link, 64 lanes each way). -/
def wearUcie (link module lane : Nat) : Nat := 0x6000000 + (link * 16 + module) * 128 + lane

/-- The key of a row's corrected errors in an HBM4 stack. -/
def wearRow (mem row : Nat) : Nat := 2 ^ 48 + mem * 2 ^ 40 + row

/-- The key of a row's uncorrectable errors. -/
def wearRowBad (mem row : Nat) : Nat := 2 ^ 52 + mem * 2 ^ 40 + row

/-- The row of a physical address in its stack (R156; log entry 40). -/
def stackRowOf (s : State) (pa : Nat) : Nat := (Config.stackRow (dieGranule s pa * 1024 + pa % 1024)).toNat

/-- A counter of the wear record. -/
def wearAt (s : State) (k : Nat) : Nat := spGet 0 s.pkg.wear.counts k

/-- A counter of the wear record raised. -/
def bumpWear (s : State) (k n : Nat) : State :=
  { s with pkg := { s.pkg with wear := { s.pkg.wear with counts := spSet 0 s.pkg.wear.counts k (wearAt s k + n) } } }

end Sys2Proof.Machine
end

