-- ==== Sys2Proof/Machine/Routes.lean ====
section
/-! DEFINITION. The links of the package and the routes over them (R8 to R11, R264, R265), and what a failed link holds back
(R262). -/

namespace Sys2Proof.Machine

/-- N, the count of ring dies (R1, R8). -/
def State.nring (s : State) : Nat := 2 * s.ndie

/-- The links of the package (R8, R9): ring links 0 to N − 1, chords N to 3N/2 − 1, then IO0–0, IO0–1, IO1–N/2, IO1–N/2+1. -/
def State.links (s : State) : Nat := s.nring + s.nring / 2 + 4

/-- Whether a link trained at the last reset (R19, R261). -/
def State.trained (s : State) (l : Nat) : Bool := !s.pkg.downLinks.contains l

/-- The links out of a ring position in the order in which a route prefers them (R265), each with the position it reaches: the
ring link to p + 1, the ring link to p − 1, the chord. -/
def State.linksAt (s : State) (p : Nat) : List (Nat × Nat) :=
  let n := s.nring
  [(p, (p + 1) % n), ((p + n - 1) % n, (p + n - 1) % n), (n + p % (n / 2), (p + n / 2) % n)]

/-- The trained ones of them. -/
def State.trainedAt (s : State) (p : Nat) : List (Nat × Nat) := (s.linksAt p).filter (fun e => s.trained e.1)

/-- One round of the distances to a position: each position takes the best of its neighbours' distances plus one. -/
def relax (s : State) (d : List Nat) : List Nat :=
  (List.range s.nring).map (fun p => (s.trainedAt p).foldl (fun x e => min x (d.getD e.2 255 + 1)) (d.getD p 255))

/-- The distances of every position to one, over the trained links; 255 where there is no way. -/
def distances (s : State) (goal : Nat) : List Nat :=
  (List.range s.nring).foldl (fun d _ => relax s d) ((List.range s.nring).map (fun p => if p = goal then 0 else 255))

/-- The links of the route from a ring position, chosen hop by hop (R265). -/
def routeFrom (s : State) (d : List Nat) : Nat → Nat → List Nat
  | 0, _ => []
  | fuel + 1, p =>
    if d.getD p 255 = 0 then []
    else
      match (s.trainedAt p).find? (fun e => d.getD e.2 255 + 1 == d.getD p 255) with
      | none => []
      | some e => e.1 :: routeFrom s d fuel e.2

/-- The route between two ring positions. -/
def ringRoute (s : State) (a b : Nat) : List Nat := routeFrom s (distances s b) s.nring a

/-- The IO link of an IO die that its traffic takes, and the ring position it enters: the lower-numbered one that is trained
(R265). -/
def ioEntry (s : State) (io : Nat) : Nat × Nat :=
  let n := s.nring
  let l := n + n / 2 + 2 * io
  let p := io * (n / 2)
  if s.trained l then (l, p) else (l + 1, p + 1)

/-- The route between two dies: ring positions are numbered 0 to N − 1, IO dies N and N + 1. -/
def route (s : State) (a b : Nat) : List Nat :=
  let n := s.nring
  let x := if n ≤ a then some (ioEntry s (a - n)) else none
  let y := if n ≤ b then some (ioEntry s (b - n)) else none
  (x.map Prod.fst).toList ++ ringRoute s ((x.map Prod.snd).getD a) ((y.map Prod.snd).getD b) ++ (y.map Prod.fst).toList

/-- The ring positions that a list of links visits from a position. -/
def visits (s : State) : Nat → List Nat → List Nat
  | p, [] => [p]
  | p, l :: t => p :: visits s (((s.linksAt p).find? (fun e => e.1 == l)).elim p Prod.snd) t

/-- The dies that a route passes: ring positions, without the IO dies at its ends. -/
def routeDies (s : State) (a b : Nat) : List Nat :=
  let n := s.nring
  let x := if n ≤ a then (ioEntry s (a - n)).2 else a
  let y := if n ≤ b then (ioEntry s (b - n)).2 else b
  visits s x (ringRoute s x y)

/-- Whether a packet from one die to another is held, since its route crosses a failed link (R262). -/
def heldBetween (s : State) (a b : Nat) : Bool :=
  !s.pkg.failedLinks.isEmpty && a != b && (route s a b).any s.pkg.failedLinks.contains

/-- Whether a compute die on the route between two dies is halted (R189, R260). -/
def haltedBetween (s : State) (a b : Nat) : Bool :=
  s.dies.any (fun e => e.2.halted) && (routeDies s a b).any (fun p => p % 2 == 0 && (s.die (p / 2)).halted)

/-- The ring position of a compute die (R8). -/
def computeNode (d : Nat) : Nat := 2 * d

/-- The ring position of the home memory die of a physical address (R8, R156). -/
def homeNode (s : State) (pa : Nat) : Nat := 2 * homeDie s pa + 1

/-- The die that a target of a wave's access lies on: the home memory die (R156), the IO die of a window's port (R276), or the
wave's own die. -/
def targetNode (s : State) (die : Nat) : Target → Nat
  | .pkg pa => homeNode s pa
  | .win w _ => s.nring + (spGet ({} : Window) s.pkg.windows w).port.toNat / 4
  | .sp _ => computeNode die

/-- Whether a request of a die to a target is held on its way. -/
def requestHeld (s : State) (die : Nat) (g : Target) : Bool := heldBetween s (computeNode die) (targetNode s die g)

/-- Whether the reply is held on its way back. -/
def replyHeld (s : State) (die : Nat) (g : Target) : Bool := heldBetween s (targetNode s die g) (computeNode die)

/-- Whether a request to a target or its reply is held. -/
def tripHeld (s : State) (die : Nat) (g : Target) : Bool := requestHeld s die g || replyHeld s die g

/-- Whether an atomic's reply waits because a die on its route is halted, and its timeout with it (R189, R260). -/
def atomicHalted (s : State) (die : Nat) (g : Target) : Bool :=
  haltedBetween s (computeNode die) (targetNode s die g) || haltedBetween s (targetNode s die g) (computeNode die)

end Sys2Proof.Machine
end

