-- ==== Sys2Proof/Machine/Mem.lean ====
section
/-! DEFINITION. Address translation, the scratchpad and instruction fetch (chapter 06). -/

namespace Sys2Proof.Machine

/-! ### Translation -/

/-- The doubleword that a walk reads at a physical address (R161); outside installed memory its bytes are open (log entry
6). -/
def walkRead (s : State) (pa : Nat) : Nat :=
  if pa + 8 ≤ s.installed then Memory.readN s.mem pa 8
  else (List.range 8).foldr (fun k x => (Config.absentByte (pa + k)).toNat + 256 * x) 0

/-- Bits of a page-table or address-space entry. -/
def PageBits.valid (e : Nat) : Bool := bits e 0 1 == 1

/-- The leaf bit of a page-table entry. -/
def PageBits.leaf (e : Nat) : Bool := bits e 1 1 == 1

/-- Reserved bits of a page-table entry that must be zero (R162). -/
def PageBits.reservedZero (e : Nat) : Bool := bits e 56 8 == 0 && bits e 46 2 == 0 && bits e 8 5 == 0

/-- What a walk ends in: the leaf entry with its page size in bits, or the cause of a fault. -/
abbrev Walk := Except (BitVec 8) (Nat × Nat)

/-- The page size in bits of a leaf at a level (R161). -/
def pageBits (level : Nat) : Nat := if level = 1 then 39 else if level = 2 then 29 else 19

/-- Check 1 of R163 on a leaf at a level: WIN is zero unless NET, the base is aligned to the page. -/
def leafOk (level e : Nat) : Bool :=
  PageBits.reservedZero e && decide (level ≠ 0) && (bits e 7 1 == 1 || bits e 48 8 == 0) &&
    bits (bits e 13 33 * 8192) 0 (pageBits level) == 0

/-- Check 1 of R163 on a table entry at a level: bits [8:2] zero and, from level 0, the next table 8 KiB aligned, which PA
[45:13] always is. -/
def tableOk (level e : Nat) : Bool :=
  PageBits.reservedZero e && decide (level ≠ 3) && bits e 2 6 == 0 && bits e 48 8 == 0

/-- The walk from a table at a level (R161 to R163, checks 1 and 2); `fuel` counts the levels left. -/
def walkFrom (s : State) (va : Nat) : Nat → Nat → Nat → Walk
  | 0, _, _ => .error 0x05
  | fuel + 1, level, table =>
    let idx := if level = 0 then bits va 49 11 else bits va (49 - 10 * level) 10
    let pa := table + 8 * idx
    if s.poisoned pa then .error 0x0F
    else
      let e := walkRead s pa
      if !PageBits.valid e then .error 0x05
      else if PageBits.leaf e then
        if !leafOk level e then .error 0x05
        else if bits e 7 1 == 0 && decide (s.installed < bits e 13 33 * 8192 + 2 ^ pageBits level) then .error 0x05
        else .ok (e, pageBits level)
      else if !tableOk level e then .error 0x05
      else walkFrom s va fuel (level + 1) (bits e 13 33 * 8192)

/-- The virtual prefix that an entry of a level translates (R161). -/
def walkPrefix (level va : Nat) : Nat := va / 2 ^ (49 - 10 * level)

/-- The cached table entry from which a walk starts, the deepest first (R164): while it is cached, whether a walk uses it or the entries in
memory is open per access (R165; log entry 7). -/
def walkStart (s : State) (asid : BitVec 16) (va : Nat) : Option WalkEntry :=
  ([2, 1, 0] : List Nat).findSome? (fun l =>
    s.myCluster.walker.find? (fun e => e.asid == asid && e.level == l && e.vpre == walkPrefix l va &&
      Config.usesCachedTable s.free (walkPrefix l va * 4 + l)))

/-- The walk of an address space from its entry in the address-space table (R160, R161). -/
def walkRoot (s : State) (asid : BitVec 16) (va : Nat) : Walk :=
  let pa := 8 * asid.toNat
  if asid = 0xFFFF then .error 0x05
  else if s.poisoned pa then .error 0x0F
  else
    let e := walkRead s pa
    if !PageBits.valid e || bits e 1 13 != 0 || bits e 46 18 != 0 then .error 0x05
    else walkFrom s va 4 0 (bits e 14 32 * 16384)

/-- The walk for an address: from a cached table entry, or from the root. -/
def walk (s : State) (asid : BitVec 16) (va : Nat) : Walk :=
  match walkStart s asid va with
  | some e => walkFrom s va (3 - e.level) (e.level + 1) (bits e.entry.toNat 13 33 * 8192)
  | none => walkRoot s asid va

/-- The entries that a walk reads from a table on: level, physical address and entry, down to the leaf or the first invalid one. -/
def traceFrom (s : State) (va : Nat) : Nat → Nat → Nat → List (Nat × Nat × Nat)
  | 0, _, _ => []
  | fuel + 1, level, table =>
    let pa := table + 8 * (if level = 0 then bits va 49 11 else bits va (49 - 10 * level) 10)
    let e := walkRead s pa
    (level, pa, e) :: (if PageBits.valid e && !PageBits.leaf e && tableOk level e then traceFrom s va fuel (level + 1) (bits e 13 33 * 8192) else [])

/-- The entries that the walk for an address reads after the address-space table's. -/
def walkTrace (s : State) (asid : BitVec 16) (va : Nat) : List (Nat × Nat × Nat) :=
  match walkStart s asid va with
  | some e => traceFrom s va (3 - e.level) (e.level + 1) (bits e.entry.toNat 13 33 * 8192)
  | none => traceFrom s va 4 0 (bits (walkRead s (8 * asid.toNat)) 14 32 * 16384)

/-- Whether a failed link holds a walk: it reads an entry over a route that crosses one (R262). -/
def walkHeld (s : State) (asid : BitVec 16) (va : Nat) : Bool :=
  tripHeld s s.w.die (.pkg (8 * asid.toNat)) || (walkTrace s asid va).any (fun e => tripHeld s s.w.die (.pkg e.2.1))

/-- The cached translation of a cluster for a virtual address, if any (R164). -/
def tlbLookup (c : Cluster) (asid : BitVec 16) (va : Nat) : Option TlbEntry :=
  c.tlb.find? (fun e => (e.asid == asid || bits e.leaf.toNat 6 1 == 1) && e.vpage == va / 2 ^ e.bits)

/-- Whether an entry of the miss table is the one of an address (R166). -/
def Miss.covers (m : Miss) (asid : BitVec 16) (va : Nat) : Bool := m.asid == asid && m.region == va / 2 ^ 19

/-- The end of a walk that was delivered to the focused wave and that its access has not used yet (R166). -/
def delivered (s : State) (asid : BitVec 16) (va : Nat) : Option WalkEnd :=
  (s.myCluster.misses.find? (fun m => m.covers asid va && m.done.isSome && m.waiters.any (fun x => x.1 == s.w.id))).bind (fun m => m.done)

/-- The translation an access of the focused wave uses: the end of the walk it waited for, the cluster's cached entry or a walk. While
a cached entry is stale, which of the two is open per access until a TLBINV drops it (R165; log entry 7). -/
def lookup (s : State) (asid : BitVec 16) (va : Nat) : Walk :=
  match delivered s asid va with
  | some (.leaf e b) => .ok (e, b)
  | some (.fault c) => .error c
  | none =>
    match tlbLookup s.myCluster asid va with
    | none => walk s asid va
    | some e =>
      match walk s asid va with
      | .ok (l, b) =>
        if l = e.leaf.toNat ∧ b = e.bits then .ok (l, b)
        else if Config.usesCached s.free (va / 2 ^ 19) then .ok (e.leaf.toNat, e.bits) else .ok (l, b)
      | .error c => if Config.usesCached s.free (va / 2 ^ 19) then .ok (e.leaf.toNat, e.bits) else .error c

/-! ### The miss table (R166) -/

/-- Whether an access of the focused wave at an address misses the TLB and has no walk's end. -/
def misses (s : State) (va : Nat) : Bool := (delivered s s.w.asid va).isNone && (tlbLookup s.myCluster s.w.asid va).isNone

/-- The walks of a cluster that have not ended. -/
def Cluster.openMisses (c : Cluster) : List Miss := c.misses.filter (fun m => m.done.isNone)

/-- An agent of the focused wave waits on the walk for an address: it joins the entry of the region, or takes one of the 256 while there
is one (R166). -/
def askWalk (agent : Nat) (s : State) (va : Nat) : State :=
  let c := s.myCluster
  let me := (s.w.id, agent)
  if c.misses.any (fun m => m.covers s.w.asid va && m.done.isNone) then
    s.setMyCluster { c with misses := c.misses.map (fun m =>
      if m.covers s.w.asid va && m.done.isNone && !m.waiters.contains me then { m with waiters := m.waiters ++ [me] } else m) }
  else if 256 ≤ c.openMisses.length then s
  else
    { s.setMyCluster { c with misses := c.misses ++ [{ asid := s.w.asid, region := va / 2 ^ 19, seq := s.sseq, waiters := [me] }] } with
      sseq := s.sseq + 1 }

/-- The walks that accesses at some addresses must wait for, asked for by an agent; none where every one is translated. -/
def awaitWalks (agent : Nat) (vas : List Nat) (s : State) : Option State :=
  let l := vas.filter (misses s)
  if l.isEmpty then none else some (l.foldl (askWalk agent) s)

/-- An agent of the focused wave has used what its walks delivered. -/
def dropWalks (agent : Nat) (s : State) : State :=
  let c := s.myCluster
  let me := (s.w.id, agent)
  if c.misses.any (fun m => m.done.isSome && m.waiters.contains me) then
    s.setMyCluster { c with misses := (c.misses.map (fun m =>
      if m.done.isSome then { m with waiters := m.waiters.filter (· != me) } else m)).filter (fun m => m.done.isNone || !m.waiters.isEmpty) }
  else s

/-- Whether an agent of the focused wave waits on a walk, or on a place in the miss table. -/
def awaits (agent : Nat) (s : State) : Bool :=
  s.myCluster.misses.any (fun m => m.done.isNone && m.waiters.contains (s.w.id, agent)) || decide (256 ≤ s.myCluster.openMisses.length)

/-- A step of an agent ended: what its walks delivered is used up unless it waits on another one. -/
def settleWalks (agent : Nat) (s : State) : State := if awaits agent s then s else dropWalks agent s

/-- What an access asks of a leaf (R163, check 4) and of a network window (R167, checks 5 and 7): the rights R, W and X, and
for a window none, a read, a write, or an atomic that R277 carries. -/
structure Acc where
  r : Bool := false
  w : Bool := false
  x : Bool := false
  net : Option (BitVec 3) := none
  deriving DecidableEq, Repr

/-- A load (R163). -/
def Acc.load : Acc := { r := true }
/-- A store. -/
def Acc.store : Acc := { w := true }
/-- An atomic on package memory. -/
def Acc.atomic : Acc := { r := true, w := true }
/-- An instruction fetch. -/
def Acc.fetch : Acc := { x := true }

/-- Checks 3 to 7 of R163 on a leaf, and where the access goes. -/
def leafTarget (s : State) (sup : Bool) (acc : Acc) (e pbits va : Nat) : Except (BitVec 8) Target :=
  let off := bits e 13 33 * 8192 + va % 2 ^ pbits
  if !sup && bits e 5 1 == 0 then .error 0x07
  else if (acc.r && bits e 2 1 == 0) || (acc.w && bits e 3 1 == 0) || (acc.x && bits e 4 1 == 0) then .error 0x07
  else if bits e 7 1 == 0 then .ok (.pkg off)
  else
    match acc.net with
    | none => .error 0x07
    | some need =>
      let d := spGet {} s.pkg.windows (bits e 48 8)
      if !d.valid || decide (d.len.toNat ≤ off) then .error 0x05
      else if d.rights &&& need != need then .error 0x07
      else .ok (.win (bits e 48 8) off)

/-- Translation of a virtual address below the aperture (R160 to R167). -/
def translate (s : State) (asid : BitVec 16) (sup : Bool) (acc : Acc) (va : Nat) : Except (BitVec 8) Target :=
  match lookup s asid va with
  | .error c => .error c
  | .ok (e, b) => leafTarget s sup acc e b va

/-- Whether a virtual address lies in the scratchpad aperture (R146). -/
def inAperture (va : Nat) : Bool := bits va 40 24 == 0xFFFFF

/-- The size in bytes of a team's scratchpad. -/
def Team.bytes (t : Team) : Nat := t.kib * 1024

/-- The address that an access of `n` bytes has translated, if it has one: aligned, and outside the scratchpad (R146, R147). -/
def walked (pol3 : Bool) (n : Nat) (va : U64) : List Nat :=
  if bits va.toNat 60 4 != 0 || pol3 || inAperture va.toNat || va.toNat % n != 0 then [] else [va.toNat]

/-- The target of an access of `n` bytes at a virtual address, checked in the order of R286: R146, R147, R163. `pol3` is
cache policy 3. -/
def resolve (s : State) (acc : Acc) (pol3 : Bool) (va : U64) (n : Nat) : Except (BitVec 8) Target :=
  let a := va.toNat
  if bits a 60 4 != 0 then .error 0x05
  else if pol3 || inAperture a then
    let off := if inAperture a then bits a 0 40 else a
    if s.myTeam.bytes ≤ off ∨ (8 < n ∧ s.myTeam.bytes < off + n) then .error 0x05
    else if off % n != 0 then .error 0x06
    else .ok (.sp off)
  else if a % n != 0 then .error 0x06
  else translate s s.w.asid s.w.sup acc a

/-! ### The scratchpad -/

/-- A byte of a scratchpad image outside the cluster (R205), translated on its own under the team's ASID with the rights that the access
needs; an address in the aperture is not translated, and there is no scratchpad behind it (R146). -/
def imageByte (s : State) (t : Team) (acc : Acc) (off : Nat) : Except (BitVec 8) Nat :=
  let va := t.base.toNat + t.size * 0x420000 + off
  if inAperture va then .error 0x05
  else
    match translate s t.asid t.sup acc va with
    | .ok (.pkg pa) => .ok pa
    | .ok _ => .error 0x07
    | .error c => .error c

/-- The address of a byte of a scratchpad image. -/
def imageVa (t : Team) (off : Nat) : U64 := BitVec.ofNat 64 (t.base.toNat + t.size * 0x420000 + off)

/-- The first fault of an access to `n` bytes of a team's scratchpad, with its address: only an image outside the cluster has one. -/
def spFault (s : State) (t : Nat) (acc : Acc) (off n : Nat) : Option (BitVec 8 × U64) :=
  let x := s.team t
  if x.cl.isSome || x.left == 0 then none
  else (List.range n).findSome? (fun k =>
    match imageByte s x acc (off + k) with
    | .ok pa => if acc.r && s.poisoned pa then some (0x0F, imageVa x (off + k)) else none
    | .error c => some (c, imageVa x (off + k)))

/-- `n` bytes of a team's scratchpad, in the cluster or in its image (R182, R205); what a discarded one reads as is open (log
entry 10). An access whose image faults is stopped before it reads (`spFault`). -/
def spRead (s : State) (t : Nat) (off n : Nat) : Nat :=
  if (s.team t).cl.isSome then Memory.readN (s.team t).sp off n
  else if (s.team t).left = 0 then (List.range n).foldr (fun k x => (Config.lostByte s.free (off + k)).toNat + 256 * x) 0
  else (List.range n).foldr (fun k x =>
    (match imageByte s (s.team t) Acc.load (off + k) with | .ok pa => (Memory.read s.mem pa).toNat | .error _ => 0) + 256 * x) 0

/-- Whether a wave of a team waits in a BWAIT whose phase a barrier word differs from now (R183, R347). -/
def bwaitSees (sp : List Host.Cell) (t : Nat) (w : Wave) : Bool :=
  match w.wait with
  | some (.issued (.bwait a p) 0) =>
    let x := if a = 0 then 0 else (w.s[a.toNat]).toNat
    decide (w.team = t) && bits (Memory.readN sp (if bits x 40 24 = 0xFFFFF then bits x 0 40 else x) 8) 63 1 != p.toNat
  | _ => false

/-- The BWAITs of a team that see their phase change are released, whatever the word holds later (R183, R347). -/
def wakeBarriers (s : State) (t : Nat) : State :=
  let f (w : Wave) : Wave := if bwaitSees (s.team t).sp t w then { w with wait := w.wait.map (fun x =>
    match x with | .issued i _ => .issued i 1 | y => y) } else w
  { s with w := f s.w, others := s.others.map f }

/-- `n` bytes of a team's scratchpad written; a byte of an image that cannot be reached is not written, and nothing is written to
a scratchpad that EXIT has discarded (R337). -/
def spWrite (s : State) (t : Nat) (off n v : Nat) : State :=
  if (s.team t).cl.isSome then
    let x := s.team t
    wakeBarriers (s.setTeam t { x with sp := Memory.writeN x.sp off n v
                                       bad := x.bad.filter (fun k => !(decide (off ≤ 8 * k) && decide (8 * k + 8 ≤ off + n))) }) t
  else if (s.team t).left = 0 then s
  else (List.range n).foldl (fun s' k =>
    match imageByte s (s.team t) Acc.store (off + k) with
    | .ok pa => { s' with mem := Memory.write s'.mem pa (BitVec.ofNat 8 (v / 256 ^ k)) }
    | .error _ => s') s

/-- `n` bytes at a target (R145): a network window's bytes are the peer's (log entry 10). -/
def targetRead (s : State) (t : Nat) (g : Target) (n : Nat) : Nat :=
  match g with
  | .pkg pa => Memory.readN s.mem pa n
  | .sp off => spRead s t off n
  | .win w off => (List.range n).foldr (fun k x => (Config.peerByte s.free (w * 2 ^ 46 + off + k)).toNat + 256 * x) 0

/-- Sectors that a write of `n` bytes from an address covers whole are no longer poisoned; a partial one leaves its sector (R254). -/
def clearPoison (l : List Nat) (pa n : Nat) : List Nat := l.filter (fun k => !(decide (pa ≤ 32 * k) && decide (32 * k + 32 ≤ pa + n)))

/-- `n` bytes written at a target; a write to a network window changes the peer, which is outside the package. -/
def targetWrite (s : State) (t : Nat) (g : Target) (n v : Nat) : State :=
  match g with
  | .pkg pa => { s with mem := Memory.writeN s.mem pa n v, poison := clearPoison s.poison pa n }
  | .sp off => spWrite s t off n v
  | .win _ _ => s

/-! ### Instruction fetch -/

/-- The word at a virtual address for the focused wave, through an instruction cache (R145, R146, R153): bits [63:60] and the aperture
raise PAGE, X is required, and a cached word may stand for the stored one until an IFETCH fence. A poisoned sector raises ECC (R254). -/
def fetchThrough (cache : List (Nat × BitVec 32)) (s : State) (va : U64) : Except (BitVec 8) (BitVec 32) :=
  if bits va.toNat 60 4 != 0 || inAperture va.toNat then .error 0x05
  else
    match translate s s.w.asid s.w.sup Acc.fetch va.toNat with
    | .error c => .error c
    | .ok (.pkg pa) =>
      if s.poisoned pa then .error 0x0F
      else
        let fresh := BitVec.ofNat 32 (Memory.readN s.mem pa 4)
        match lkGet cache pa with
        | none => .ok fresh
        | some old => if old = fresh then .ok fresh else if Config.usesCachedWord s.free pa then .ok old else .ok fresh
    | .ok _ => .error 0x07

/-- The instruction cache of an agent (R15): a lane's thread-fetch cache, or the AIB block cache, which the control thread uses too
(DEDUCED, log entry 17). -/
def State.cacheOf (s : State) (lane : Option Nat) : List (Nat × BitVec 32) :=
  match lane with
  | none => s.myCluster.icache
  | some j => (lkGet s.myCluster.tcache j).getD []

/-- The word at a virtual address through the AIB block cache. -/
def fetchWord (s : State) (va : U64) : Except (BitVec 8) (BitVec 32) := fetchThrough (s.cacheOf none) s va

/-- The words from an address on, or the first fetch fault with its address. -/
def fetchMany (cache : List (Nat × BitVec 32)) (s : State) (va : U64) : Nat → Except (BitVec 8 × U64) (List (BitVec 32))
  | 0 => .ok []
  | n + 1 =>
    match fetchThrough cache s va with
    | .error c => .error (c, va)
    | .ok w =>
      match fetchMany cache s (va + 4) n with
      | .error e => .error e
      | .ok ws => .ok (w :: ws)

/-- The words of a block after its header, or the first fetch fault with its address. -/
def fetchWords (s : State) (va : U64) (n : Nat) : Except (BitVec 8 × U64) (List (BitVec 32)) := fetchMany (s.cacheOf none) s va n

/-- The sector of a word that a fetch must wait for: translated, not poisoned, and in no line of the cache (R206). -/
def uncached (cache : List (Nat × BitVec 32)) (s : State) (va : U64) : Option Nat :=
  if bits va.toNat 60 4 != 0 || inAperture va.toNat then none
  else
    match translate s s.w.asid s.w.sup Acc.fetch va.toNat with
    | .ok (.pkg pa) => if s.poisoned pa || (lkGet cache pa).isSome then none else some (pa / 32)
    | _ => none

/-- A sector of instruction words asked for. -/
def askFetch (lane : Option Nat) (s : State) (k : Nat) : State :=
  let c := s.myCluster
  let x : FetchMiss := { wave := s.w.id, lane := lane, sector := k }
  if c.fmiss.contains x then s else s.setMyCluster { c with fmiss := c.fmiss ++ [x] }

/-- What a fetch of some words must wait for, asked for by an agent: translations first, then the words (R166, R206). -/
def awaitFetch (agent : Nat) (lane : Option Nat) (vas : List U64) (s : State) : Option State :=
  match awaitWalks agent (vas.flatMap (walked false 4)) s with
  | some t => some t
  | none =>
    let l := vas.filterMap (uncached (s.cacheOf lane) s)
    if l.isEmpty then none else some (l.eraseDups.foldl (askFetch lane) s)

/-- The header fields of an ABEGIN word (R29). -/
def hdrLen (w : BitVec 32) : Nat := if bits w.toNat 18 6 = 0 then 64 else bits w.toNat 18 6
/-- PRIO of a header. -/
def hdrPrio (w : BitVec 32) : Nat := bits w.toNat 12 6
/-- IDEM of a header. -/
def hdrIdem (w : BitVec 32) : Bool := bits w.toNat 11 1 == 1
/-- CATCH of a header. -/
def hdrCatch (w : BitVec 32) : Bool := bits w.toNat 10 1 == 1

/-- The checks on a named block, in the order of R323: the header word, or the cause of the failure. -/
def checkHeaderIn (cache : List (Nat × BitVec 32)) (s : State) (a : U64) : Except (BitVec 8) (BitVec 32) :=
  if bits a.toNat 0 2 != 0 then .error 0x06
  else
    match fetchThrough cache s a with
    | .error c => .error c
    | .ok w =>
      if bits w.toNat 24 8 != 0x47 then .error 0x13
      else if bits w.toNat 0 10 != 0 then .error 0x01
      else .ok w

/-- The checks through the AIB block cache. -/
def checkHeader (s : State) (a : U64) : Except (BitVec 8) (BitVec 32) := checkHeaderIn (s.cacheOf none) s a

/-- A block named at an address, with its header and words as they read now through an instruction cache, or the cause and address of the
failure (R30, R323). -/
def namedBlockIn (cache : List (Nat × BitVec 32)) (s : State) (a : U64) : Except (BitVec 8 × U64) (BitVec 32 × List (BitVec 32)) :=
  match checkHeaderIn cache s a with
  | .error c => .error (c, a)
  | .ok h =>
    match fetchMany cache s (a + 4) (hdrLen h) with
    | .error e => .error e
    | .ok ws => .ok (h, ws)

/-- A block named at an address through the AIB block cache. -/
def namedBlock (s : State) (a : U64) : Except (BitVec 8 × U64) (BitVec 32 × List (BitVec 32)) := namedBlockIn (s.cacheOf none) s a

/-- The addresses of a block's words: its header's, and once that is known those of its words. -/
def blockVas (cache : List (Nat × BitVec 32)) (s : State) (a : U64) : List U64 :=
  if bits a.toNat 0 2 != 0 then []
  else
    match fetchThrough cache s a with
    | .ok h => if bits h.toNat 24 8 != 0x47 then [a] else (List.range (hdrLen h + 1)).map (fun k => a + BitVec.ofNat 64 (4 * k))
    | .error _ => [a]

/-- What the read of a header at an aligned address must wait for, asked for by an agent. -/
def awaitHeader (agent : Nat) (lane : Option Nat) (a : U64) (s : State) : Option State :=
  if bits a.toNat 0 2 != 0 then none else awaitFetch agent lane [a] s

/-- What a fetch of a block must wait for, asked for by an agent. -/
def awaitBlock (agent : Nat) (lane : Option Nat) (a : U64) (s : State) : Option State :=
  if bits a.toNat 0 2 != 0 then none
  else
    match awaitHeader agent lane a s with
    | some t => some t
    | none => awaitFetch agent lane (blockVas (s.cacheOf lane) s a) s

end Sys2Proof.Machine
end

