-- ==== Sys2Proof/Machine/Regs.lean ====
section
/-! DEFINITION. The wave's registers: scalar registers, header fields, vector configuration, holdings, and the values that
CRRD reads (R25, R60 to R76, R111, R115, R125, R133, R185, R194, R197, R321). -/

namespace Sys2Proof.Machine

/-! ### Launch header fields (R194) -/

/-- PKG. -/
def Hdr.pkg (h : Hdr) : Bool := bits h.dw0.toNat 63 1 == 1
/-- CAPPED. -/
def Hdr.capped (h : Hdr) : Bool := bits h.dw0.toNat 62 1 == 1
/-- TOPUP. -/
def Hdr.topup (h : Hdr) : Bool := bits h.dw0.toNat 61 1 == 1
/-- INHERIT. -/
def Hdr.inherit (h : Hdr) : Bool := bits h.dw0.toNat 60 1 == 1
/-- ENTRY. -/
def Hdr.entry (h : Hdr) : U64 := BitVec.ofNat 64 (bits h.dw0.toNat 0 60)
/-- DUAL. -/
def Hdr.dual (h : Hdr) : Bool := bits h.dw1.toNat 63 1 == 1
/-- DEPTH. -/
def Hdr.depth (h : Hdr) : Nat := bits h.dw1.toNat 60 3
/-- CLASS. -/
def Hdr.cls (h : Hdr) : Nat := bits h.dw1.toNat 58 2
/-- The role of member m. -/
def Hdr.role (h : Hdr) (m : Nat) : Nat := bits h.dw1.toNat (42 + 2 * m) 2
/-- Team size S. -/
def Hdr.size (h : Hdr) : Nat := bits h.dw1.toNat 39 3 + 1
/-- LOG2L. -/
def Hdr.log2l (h : Hdr) : Nat := bits h.dw1.toNat 36 3
/-- The width of level k. -/
def Hdr.width (h : Hdr) (k : Nat) : Nat := bits h.dw1.toNat (6 * k) 6
/-- SPKIB. -/
def Hdr.spkib (h : Hdr) : Nat := bits h.dw3.toNat 32 16
/-- TCOUNT. -/
def Hdr.tcount (h : Hdr) : Nat := bits h.dw3.toNat 0 32
/-- QMAX. -/
def Hdr.qmax (h : Hdr) : Nat := bits h.dw4.toNat 8 8 + 1
/-- min(FLOOR, QMAX) (R69). -/
def Hdr.floor (h : Hdr) : Nat := min (bits h.dw4.toNat 16 8) h.qmax
/-- BLKC. -/
def Hdr.blkc (h : Hdr) : BitVec 3 := BitVec.ofNat 3 (bits h.dw4.toNat 4 3)
/-- EWC. -/
def Hdr.ewc (h : Hdr) : BitVec 2 := BitVec.ofNat 2 (bits h.dw4.toNat 2 2)
/-- NREGC. -/
def Hdr.nregc (h : Hdr) : BitVec 2 := BitVec.ofNat 2 (bits h.dw4.toNat 0 2)
/-- SAVE. -/
def Hdr.save (h : Hdr) : Nat := bits h.dw5.toNat 0 60
/-- MBQ. -/
def Hdr.mbq (h : Hdr) : U64 := BitVec.ofNat 64 (bits h.dw6.toNat 32 32)
/-- IBQ. -/
def Hdr.ibq (h : Hdr) : U64 := BitVec.ofNat 64 (bits h.dw6.toNat 0 32)
/-- NENT. -/
def Hdr.nent (h : Hdr) : Nat := bits h.dw7.toNat 60 4
/-- CONT. -/
def Hdr.cont (h : Hdr) : Nat := bits h.dw7.toNat 0 60

/-- Whether a header is invalid (R195); `inherit0` takes INHERIT as 0, as boot does (R269). -/
def Hdr.invalid (h : Hdr) (inherit0 : Bool) : Bool :=
  bits h.dw0.toNat 0 2 != 0 || bits h.dw5.toNat 0 12 != 0 || bits h.dw3.toNat 48 16 != 0 || bits h.dw4.toNat 24 40 != 0 ||
  bits h.dw4.toNat 7 1 != 0 || bits h.dw5.toNat 60 4 != 0 ||
  decide (4 < h.log2l) || decide (6 ≤ h.blkc.toNat) || h.tcount == 0 ||
  decide (64 < (List.range 6).foldl (fun x k => x + h.width k) 0) ||
  (List.range 8).any (fun m => decide (h.size ≤ m) && h.role m != 0) ||
  decide (1024 < h.spkib) || decide (256 < h.size * h.floor) ||
  (h.ibq == 0 && (inherit0 || !h.inherit))

/-! ### Scalar registers (R25) -/

/-- A scalar register; s0 reads zero. -/
def Wave.gs (w : Wave) (r : BitVec 5) : U64 := if r = 0 then 0 else w.s[r.toNat]

/-- A scalar register written; a write to s0 is discarded. -/
def Wave.ss (w : Wave) (r : BitVec 5) (v : U64) : Wave := if r = 0 then w else { w with s := w.s.set r.toNat v }

/-! ### Vector configuration (R62 to R68) -/

/-- NREG of a register-count code (R63). -/
def nregOf (c : BitVec 2) : Nat := 8 * 2 ^ c.toNat
/-- EW in bits of an element-width code (R63). -/
def ewOf (c : BitVec 2) : Nat := 8 * 2 ^ c.toNat
/-- BLK of a block-length code (R63). -/
def blkOf (c : BitVec 3) : Nat := if c.toNat = 0 then 1 else 8 * 2 ^ c.toNat
/-- EW of a wave. -/
def Wave.ew (w : Wave) : Nat := ewOf w.cfg.ewc
/-- The lane count L of a wave (R26). -/
def Wave.lanes (w : Wave) : Nat := 2 ^ w.hdr.log2l
/-- BLK of a wave. -/
def Wave.blk (w : Wave) : Nat := blkOf w.cfg.blkc

/-- MAXVL from QUOTA, NREG and EW (R64). -/
def maxvlOf (lanes quota nreg ew blk : Nat) : Nat :=
  let raw := min 8192 (lanes * (quota / nreg) * (2048 / ew))
  raw / max lanes blk * max lanes blk

/-- Segments per lane of a register at a vector length (R75). -/
def segsOf (lanes ew vl : Nat) : Nat := ceilDiv (ceilDiv vl lanes * ew) 2048

/-- Segments per lane that a register holds: none unless it is live (R68). -/
def Wave.regSegs (w : Wave) (r : VReg) : Nat :=
  match r.st with
  | .live => segsOf w.lanes w.ew r.tag
  | _ => 0

/-- The wave's holding H (R68). -/
def Wave.hold (w : Wave) : Nat :=
  w.vregs.foldl (fun x e => x + w.regSegs e.2) 0 + (if w.qseg = .live then 1 else 0)

/-- The pool P of a cluster (R68). -/
def Cluster.pool (c : Cluster) : Nat := 128 + 8 * c.uext

/-- The waves resident on a cluster. -/
def State.residents (s : State) (die cl : Nat) : List Wave := s.waves.filter (fun w => decide (w.place = .resident die cl))

/-- The progress invariant of R71 over a list of (QUOTA, FLOOR) pairs. -/
def progress (pool : Nat) (l : List (Nat × Nat)) : Bool :=
  l.all (fun v => decide (v.1 + (l.foldl (fun x u => x + u.2) 0 - v.2) ≤ pool))

/-- The (QUOTA, FLOOR) pairs of the resident waves of a cluster other than wave `id`. -/
def State.quotas (s : State) (die cl id : Nat) : List (Nat × Nat) :=
  ((s.residents die cl).filter (fun w => w.id != id)).map (fun w => (w.cfg.quota, w.cfg.floor))

/-! ### Values of control registers (R321) -/

/-- A Bool as a bit. -/
def b2n (b : Bool) : Nat := if b then 1 else 0

/-- WSTAT (R60). -/
def Wctl.wstat (c : Wctl) : Nat :=
  b2n c.serial * 2 ^ 15 + b2n c.incont * 2 ^ 14 + b2n c.dualfix * 64 + b2n c.ntrans * 32 + b2n c.short * 16 +
    b2n c.latinv * 8 + b2n c.rdrel * 4

/-- WCTL (R61). -/
def Wctl.wctl (c : Wctl) : Nat := b2n c.dual * 4 + b2n c.lattrap * 2 + b2n c.rdreltrap

/-- ECAUSE (R235). -/
def TrapRegs.ecause (t : TrapRegs) : Nat :=
  b2n t.inh * 2 ^ 63 + b2n t.ppriv * 2 ^ 62 + b2n t.rskip * 2 ^ 61 + t.src.toNat * 2 ^ 58 + t.iw.toNat * 2 ^ 40 +
    t.vp.toNat * 2 ^ 16 + t.cause.toNat

/-- DBGCTL (R256). -/
def Dbg.value (d : Dbg) : Nat :=
  b2n d.ena * 2 ^ 63 + b2n d.laneMode * 2 ^ 62 + b2n d.single * 2 ^ 61 + d.baddr.toNat * 4 + d.wmode.toNat

/-- A WM register (R185). -/
def Wm.value (m : Wm) : Nat := b2n m.v * 2 ^ 63 + b2n m.cur * 2 ^ 62 + m.esz.toNat * 2 ^ 60 + m.waddr.toNat / 8 * 8

/-- VCFG (R62). -/
def Wave.vcfg (w : Wave) : Nat :=
  w.cfg.share * 2 ^ 32 + w.cfg.nreg * 2 ^ 16 + w.hdr.log2l * 2 ^ 8 + w.cfg.blkc.toNat * 16 + w.cfg.ewc.toNat * 4 +
    w.cfg.nregc.toNat

/-- DIEID (R12). -/
def State.dieid (s : State) : Nat := s.ndie * 2 ^ 16 + (s.die s.w.die).encl * 256 + s.w.die

/-- CLID (R13). -/
def State.clid (s : State) : Nat := b2n s.myCluster.spare * 128 + s.w.cl

/-- REGQ (R69). -/
def State.regq (s : State) : Nat :=
  s.myTeam.tfree * 2 ^ 48 + s.w.cfg.qmax * 2 ^ 32 + s.w.cfg.floor * 2 ^ 16 + s.w.cfg.quota

/-- REGUSE (R70). -/
def State.reguse (s : State) : Nat :=
  s.w.hold * 2 ^ 48 + s.myCluster.pool * 2 ^ 32 + (s.w.vregs.filter (fun e => e.2.st = .spilled)).length * 2 ^ 8 +
    (s.w.vregs.filter (fun e => e.2.st = .live)).length

/-- A token register (R191): the entry of the tenant the last CRWR named. -/
def TokTable.value (t : TokTable) : Nat :=
  let e := if t.last = 0xFFFF then t.dflt else (t.tab.find? (fun e => e.asid == t.last)).getD t.dflt
  t.last.toNat * 2 ^ 48 + e.bulk.toNat * 2 ^ 32 + e.demand.toNat * 2 ^ 16 + e.sync.toNat

/-- The value that a CRRD of an assigned register returns (R321, R353), with reserved fields 0. -/
def State.crValue (s : State) (n : Nat) : U64 :=
  let w := s.w
  BitVec.ofNat 64 (
    if n = 0x000 then w.cfg.vl
    else if n = 0x001 then w.vcfg
    else if n = 0x002 then w.cfg.maxvl
    else if n = 0x003 then w.cfg.vstart.toNat
    else if n = 0x004 then w.cfg.fflags.toNat
    else if n = 0x005 then w.cfg.frm.toNat
    else if n = 0x006 then w.ctl.wstat
    else if n = 0x007 then w.ctl.wctl
    else if n = 0x008 then w.cfg.nzcnt.toNat
    else if n = 0x009 then w.cfg.pvoff.toNat
    else if n = 0x010 then w.bud.ibgt.toNat
    else if n = 0x011 then w.bud.mbgt.toNat
    else if n = 0x012 then w.bud.cidx.toNat
    else if n = 0x013 then w.hdr.dw7.toNat
    else if n = 0x014 then w.bud.xpc.toNat
    else if n = 0x015 then w.bud.xcause.toNat
    else if n = 0x020 then w.wid.toNat
    else if n = 0x021 then bits w.hdr.dw1.toNat 0 36
    else if n = 0x023 then s.dieid
    else if n = 0x024 then s.clid
    else if n = 0x030 then s.regq
    else if n = 0x031 then s.reguse
    else if 0x040 ≤ n ∧ n ≤ 0x047 then (spGet ({} : Wm) w.wm (n - 0x040)).value
    else if n = 0x800 then s.myCluster.qon.toNat
    else if n = 0x802 then (s.die w.die).trapvec.toNat * 4
    else if n = 0x803 then w.trp.epc.toNat * 4
    else if n = 0x804 then w.trp.ecause
    else if n = 0x805 then w.trp.eval.toNat
    else if n = 0x810 then s.myCluster.rate.value
    else if n = 0x811 then s.myCluster.depth.value
    else if n = 0x820 then w.dbg.value
    else 0)

end Sys2Proof.Machine
end

