-- ==== Sys2Proof/Machine/Flags.lean ====
section
/-! DEFINITION. Arithmetic and its flags: rounding, the floating formats, conversion, and the corner cases of integers
(chapter 04). -/

namespace Sys2Proof.Machine

/-! ### Integers (R108) -/

/-- A value of `n` bits read as two's complement. -/
def sval (n v : Nat) : Int := if bits v (n - 1) 1 = 1 then (v % 2 ^ n : Nat) - (2 ^ n : Nat) else (v % 2 ^ n : Nat)

/-- An integer as a field of `n` bits. -/
def uval (n : Nat) (x : Int) : Nat := (x % (2 ^ n : Nat)).toNat

/-- Division rounded toward zero, with the fixed corner cases (R108); `sgn` selects DIVS. -/
def divInt (n : Nat) (sgn : Bool) (a b : Nat) : Nat :=
  if b % 2 ^ n = 0 then 2 ^ n - 1
  else if sgn then uval n ((sval n a).tdiv (sval n b))
  else a % 2 ^ n / (b % 2 ^ n)

/-- The remainder, with the dividend's sign for REMS (R108). -/
def remInt (n : Nat) (sgn : Bool) (a b : Nat) : Nat :=
  if b % 2 ^ n = 0 then a % 2 ^ n
  else if sgn then uval n ((sval n a).tmod (sval n b))
  else a % 2 ^ n % (b % 2 ^ n)

/-- The arithmetic right shift. -/
def sarInt (n a k : Nat) : Nat := uval n (sval n a / (2 ^ (k % n) : Nat))

/-- An exact integer clamped to a range. -/
def clampInt (lo hi x : Int) : Int := if x < lo then lo else if hi < x then hi else x

/-! ### Floating formats (R105) -/

/-- A floating format: exponent bits, fraction bits, and whether subnormals are flushed (R114). -/
structure Fmt where
  ebits : Nat
  fbits : Nat
  flush : Bool := false
  deriving DecidableEq, Repr

/-- FP32. -/
def Fmt.f32 : Fmt := { ebits := 8, fbits := 23 }
/-- FP16. -/
def Fmt.f16 : Fmt := { ebits := 5, fbits := 10 }
/-- E8M7. -/
def Fmt.e8m7 : Fmt := { ebits := 8, fbits := 7, flush := true }

/-- The width in bits of a format. -/
def Fmt.width (f : Fmt) : Nat := 1 + f.ebits + f.fbits
/-- The exponent bias. -/
def Fmt.bias (f : Fmt) : Nat := 2 ^ (f.ebits - 1) - 1
/-- The exponent of the last place of a subnormal. -/
def Fmt.qmin (f : Fmt) : Int := 1 - (f.bias : Int) - f.fbits
/-- The encoding of +infinity. -/
def Fmt.inf (f : Fmt) : Nat := (2 ^ f.ebits - 1) * 2 ^ f.fbits
/-- The sign bit. -/
def Fmt.sign (f : Fmt) (neg : Bool) : Nat := if neg then 2 ^ (f.ebits + f.fbits) else 0
/-- The canonical NaN (R106). -/
def Fmt.nan (f : Fmt) : Nat := f.inf + 2 ^ (f.fbits - 1)

/-- A decoded value: a NaN (signalling or quiet), an infinity, or the exact finite value (−1)^neg × man × 2^exp. -/
inductive FVal where
  | nan (sig : Bool)
  | inf (neg : Bool)
  | fin (neg : Bool) (man : Nat) (exp : Int)
  deriving DecidableEq, Repr

/-- The value of an encoding (R105, R114). -/
def Fmt.dec (f : Fmt) (v : Nat) : FVal :=
  let neg := bits v (f.ebits + f.fbits) 1 == 1
  let e := bits v f.fbits f.ebits
  let m := bits v 0 f.fbits
  if e = 2 ^ f.ebits - 1 then
    (if m = 0 then .inf neg else .nan (bits m (f.fbits - 1) 1 == 0))
  else if e = 0 then .fin neg (if f.flush then 0 else m) f.qmin
  else .fin neg (m + 2 ^ f.fbits) (f.qmin + (e - 1 : Nat))

/-- Whether a value is a NaN. -/
def FVal.isNan : FVal → Bool
  | .nan _ => true
  | _ => false

/-- Whether a value is a signalling NaN. -/
def FVal.isSig : FVal → Bool
  | .nan s => s
  | _ => false

/-- NV of FFLAGS (R115). -/
def fNV : BitVec 5 := 16
/-- DZ of FFLAGS. -/
def fDZ : BitVec 5 := 8
/-- OF of FFLAGS. -/
def fOF : BitVec 5 := 4
/-- UF of FFLAGS. -/
def fUF : BitVec 5 := 2
/-- NX of FFLAGS. -/
def fNX : BitVec 5 := 1

/-- A rounding mode of R111. -/
abbrev RMode := BitVec 2
/-- RNE. -/
def rne : RMode := 0

/-- Whether rounding raises the magnitude: quotient `q`, remainder `r` of a division by `d` (R111). -/
def roundUp (mode : RMode) (neg : Bool) (q r d : Nat) : Bool :=
  match mode.toNat with
  | 0 => decide (d < 2 * r) || (decide (2 * r = d) && decide (q % 2 = 1))
  | 1 => false
  | 2 => neg && decide (r ≠ 0)
  | _ => !neg && decide (r ≠ 0)

/-- A magnitude man × 2^exp rounded to a multiple of 2^q: the multiple, and whether it is inexact. -/
def roundAt (mode : RMode) (neg : Bool) (man : Nat) (exp q : Int) : Nat × Bool :=
  if q ≤ exp then (man * 2 ^ (exp - q).toNat, false)
  else
    let d := 2 ^ (q - exp).toNat
    let n := man / d
    let r := man % d
    (if roundUp mode neg n r d then n + 1 else n, decide (r ≠ 0))

/-- What an overflow delivers (R113). -/
def overflowTo (f : Fmt) (mode : RMode) (neg : Bool) : Nat :=
  match mode.toNat with
  | 0 => f.sign neg + f.inf
  | 1 => f.sign neg + f.inf - 1
  | 2 => if neg then f.sign neg + f.inf else f.inf - 1
  | _ => if neg then f.sign neg + f.inf - 1 else f.inf

/-- rnd(x, f, mode) of a magnitude with a sign: the encoding and the flags OF, UF, NX (R113, R114). -/
def rnd (f : Fmt) (mode : RMode) (neg : Bool) (man : Nat) (exp : Int) : Nat × BitVec 5 :=
  if man = 0 then (f.sign neg, 0)
  else
    let top : Int := (Nat.log2 man : Int) + exp
    let u := roundAt mode neg man exp (top - f.fbits)
    let tiny := decide (((Nat.log2 u.1 : Int) + (top - f.fbits)) < f.qmin + f.fbits)
    let q := max (top - f.fbits) f.qmin
    let r := roundAt mode neg man exp q
    let enc := (q - f.qmin).toNat * 2 ^ f.fbits + r.1
    if f.flush && tiny then (f.sign neg, fUF ||| fNX)
    else if f.inf ≤ enc then (overflowTo f mode neg, fOF ||| fNX)
    else (f.sign neg + enc, (if r.2 then fNX else 0) ||| (if tiny && r.2 then fUF else 0))

/-- A NaN result: the canonical NaN, with NV where a rule raises it (R106). -/
def nanOut (f : Fmt) (nv : Bool) : Nat × BitVec 5 := (f.nan, if nv then fNV else 0)

/-! ### Exact sums -/

/-- An exact finite number m × 2^e. -/
structure Ex where
  m : Int
  e : Int
  deriving DecidableEq, Repr

/-- An exact number from a sign and a magnitude. -/
def Ex.of (neg : Bool) (man : Nat) (exp : Int) : Ex := ⟨if neg then -(man : Int) else man, exp⟩

/-- The exact sum. -/
def Ex.add (a b : Ex) : Ex :=
  let e := min a.e b.e
  ⟨a.m * 2 ^ (a.e - e).toNat + b.m * 2 ^ (b.e - e).toNat, e⟩

/-- The exact product. -/
def Ex.mul (a b : Ex) : Ex := ⟨a.m * b.m, a.e + b.e⟩

/-- rnd of an exact number; `zneg` is the sign of an exact zero. -/
def rndEx (f : Fmt) (mode : RMode) (x : Ex) (zneg : Bool) : Nat × BitVec 5 :=
  if x.m = 0 then (f.sign zneg, 0) else rnd f mode (decide (x.m < 0)) x.m.natAbs x.e

/-- The sign of an exact zero sum: the common sign, otherwise + but for RDN (IEEE 754-2019, named by R105). -/
def zeroSign (mode : RMode) (sa sb : Bool) : Bool := if sa = sb then sa else mode == 2

/-- a + b, rounded once (R106, R112, R113). -/
def fadd (f : Fmt) (mode : RMode) (a b : Nat) : Nat × BitVec 5 :=
  match f.dec a, f.dec b with
  | .nan s, y => nanOut f (s || y.isSig)
  | x, .nan s => nanOut f (s || x.isSig)
  | .inf x, .inf y => if x = y then (f.sign x + f.inf, 0) else nanOut f true
  | .inf x, _ => (f.sign x + f.inf, 0)
  | _, .inf y => (f.sign y + f.inf, 0)
  | .fin sa ma ea, .fin sb mb eb => rndEx f mode ((Ex.of sa ma ea).add (Ex.of sb mb eb)) (zeroSign mode sa sb)

/-- The encoding with its sign changed. -/
def fneg (f : Fmt) (a : Nat) : Nat := if bits a (f.ebits + f.fbits) 1 = 1 then a - 2 ^ (f.ebits + f.fbits) else a + 2 ^ (f.ebits + f.fbits)

/-- a − b. -/
def fsub (f : Fmt) (mode : RMode) (a b : Nat) : Nat × BitVec 5 := fadd f mode a (fneg f b)

/-- a × b. -/
def fmul (f : Fmt) (mode : RMode) (a b : Nat) : Nat × BitVec 5 :=
  match f.dec a, f.dec b with
  | .nan s, y => nanOut f (s || y.isSig)
  | x, .nan s => nanOut f (s || x.isSig)
  | .inf x, .inf y => (f.sign (x != y) + f.inf, 0)
  | .inf x, .fin y m _ => if m = 0 then nanOut f true else (f.sign (x != y) + f.inf, 0)
  | .fin x m _, .inf y => if m = 0 then nanOut f true else (f.sign (x != y) + f.inf, 0)
  | .fin sa ma ea, .fin sb mb eb => rnd f mode (sa != sb) (ma * mb) (ea + eb)

/-- a × b + c, fused: one rounding (R106). -/
def ffma (f : Fmt) (mode : RMode) (a b c : Nat) : Nat × BitVec 5 :=
  let sig := (f.dec a).isSig || (f.dec b).isSig || (f.dec c).isSig
  match f.dec a, f.dec b, f.dec c with
  | .inf _, .fin _ 0 _, _ => nanOut f true
  | .fin _ 0 _, .inf _, _ => nanOut f true
  | .nan _, _, _ => nanOut f sig
  | _, .nan _, _ => nanOut f sig
  | _, _, .nan _ => nanOut f sig
  | .inf x, .inf y, .inf z => if (x != y) = z then (f.sign z + f.inf, 0) else nanOut f true
  | .inf x, .fin y _ _, .inf z => if (x != y) = z then (f.sign z + f.inf, 0) else nanOut f true
  | .fin x _ _, .inf y, .inf z => if (x != y) = z then (f.sign z + f.inf, 0) else nanOut f true
  | .inf x, .inf y, _ => (f.sign (x != y) + f.inf, 0)
  | .inf x, .fin y _ _, _ => (f.sign (x != y) + f.inf, 0)
  | .fin x _ _, .inf y, _ => (f.sign (x != y) + f.inf, 0)
  | .fin _ _ _, .fin _ _ _, .inf z => (f.sign z + f.inf, 0)
  | .fin sa ma ea, .fin sb mb eb, .fin sc mc ec =>
    rndEx f mode (((Ex.of sa ma ea).mul (Ex.of sb mb eb)).add (Ex.of sc mc ec)) (zeroSign mode (sa != sb) sc)

/-- a ÷ b (R106, R115). -/
def fdiv (f : Fmt) (mode : RMode) (a b : Nat) : Nat × BitVec 5 :=
  match f.dec a, f.dec b with
  | .nan s, y => nanOut f (s || y.isSig)
  | x, .nan s => nanOut f (s || x.isSig)
  | .inf _, .inf _ => nanOut f true
  | .inf x, .fin y _ _ => (f.sign (x != y) + f.inf, 0)
  | .fin x _ _, .inf y => (f.sign (x != y), 0)
  | .fin sa ma ea, .fin sb mb eb =>
    if mb = 0 then (if ma = 0 then nanOut f true else (f.sign (sa != sb) + f.inf, fDZ))
    else if ma = 0 then (f.sign (sa != sb), 0)
    else
      let k := 2 * f.fbits + 8
      let n := ma * 2 ^ k
      rnd f mode (sa != sb) (2 * (n / mb) + (if n % mb = 0 then 0 else 1)) (ea - eb - k - 1)

/-- The integer square root, one bit at a time from bit `k − 1`. -/
def isqrt (n : Nat) : Nat → Nat → Nat
  | 0, acc => acc
  | k + 1, acc => isqrt n k (if (acc + 2 ^ k) * (acc + 2 ^ k) ≤ n then acc + 2 ^ k else acc)

/-- The square root (R106). -/
def fsqrt (f : Fmt) (mode : RMode) (a : Nat) : Nat × BitVec 5 :=
  match f.dec a with
  | .nan s => nanOut f s
  | .inf neg => if neg then nanOut f true else (f.inf, 0)
  | .fin neg m e =>
    if m = 0 then (f.sign neg, 0)
    else if neg then nanOut f true
    else
      let e2 := if e % 2 = 0 then e - 60 else e - 61
      let n := m * 2 ^ (e - e2).toNat
      let r := isqrt n 48 0
      rnd f mode false (2 * r + (if r * r = n then 0 else 1)) (e2 / 2 - 1)

/-- a < b for values that are no NaN; −0 and +0 are equal. -/
def FVal.lt : FVal → FVal → Bool
  | .inf a, .inf b => a && !b
  | .inf a, .fin _ _ _ => a
  | .fin _ _ _, .inf b => !b
  | .fin sa ma ea, .fin sb mb eb => decide (((Ex.of sa ma ea).add (Ex.of (!sb) mb eb)).m < 0)
  | _, _ => false

/-- a = b for values that are no NaN. -/
def FVal.eq : FVal → FVal → Bool
  | .inf a, .inf b => a == b
  | .fin sa ma ea, .fin sb mb eb => decide (((Ex.of sa ma ea).add (Ex.of (!sb) mb eb)).m = 0)
  | _, _ => false

/-- The sign of a value. -/
def FVal.neg : FVal → Bool
  | .nan _ => false
  | .inf n => n
  | .fin n _ _ => n

/-- The encoding of an operand as read: a subnormal of a flushing format is a zero (R114). -/
def Fmt.read (f : Fmt) (a : Nat) : Nat :=
  if f.flush && bits a f.fbits f.ebits == 0 then f.sign (bits a (f.ebits + f.fbits) 1 == 1) else a % 2 ^ f.width

/-- minimumNumber, or maximumNumber with `hi` (R107). -/
def fminmax (f : Fmt) (hi : Bool) (a b : Nat) : Nat × BitVec 5 :=
  let x := f.dec a
  let y := f.dec b
  let fl := if x.isSig || y.isSig then fNV else 0
  if x.isNan && y.isNan then (f.nan, fl)
  else if x.isNan then (f.read b, fl)
  else if y.isNan then (f.read a, fl)
  else
    let less := x.lt y || (x.eq y && x.neg && !y.neg)
    ((if less != hi then f.read a else f.read b), fl)

/-- Floating VCMP under conditions EQ, NE, LT and GE (R107, R294). -/
def fcmp (f : Fmt) (cond : BitVec 3) (a b : Nat) : Bool × BitVec 5 :=
  let x := f.dec a
  let y := f.dec b
  let anyNan := x.isNan || y.isNan
  let sig := x.isSig || y.isSig
  match cond.toNat with
  | 0 => (!anyNan && x.eq y, if sig then fNV else 0)
  | 1 => (anyNan || !x.eq y, if sig then fNV else 0)
  | 2 => (!anyNan && x.lt y, if anyNan then fNV else 0)
  | _ => (!anyNan && !x.lt y, if anyNan then fNV else 0)

/-- Integer conditions at a width (R294). -/
def icmp (n : Nat) (cond : BitVec 3) (a b : Nat) : Bool :=
  match cond.toNat with
  | 0 => a % 2 ^ n == b % 2 ^ n
  | 1 => a % 2 ^ n != b % 2 ^ n
  | 2 => decide (a % 2 ^ n < b % 2 ^ n)
  | 3 => decide (b % 2 ^ n ≤ a % 2 ^ n)
  | 4 => decide (sval n a < sval n b)
  | 5 => decide (sval n b ≤ sval n a)
  | _ => (a &&& b) % 2 ^ n != 0

/-! ### VEXP2, VRCP, VADDC (R122 to R124) -/

/-- N × 2^E as FP32; the coefficients of R122 and R123 are exact. -/
def coef (n : Nat) (e : Int) : Nat := (rnd .f32 rne false n e).1

/-- The Horner steps of R122: p and whether a rounding was inexact. -/
def expSteps (x : Nat) : List Nat → Nat × BitVec 5 → Nat × BitVec 5
  | [], p => p
  | c :: t, p =>
    let q := ffma .f32 rne p.1 x c
    expSteps x t (q.1, p.2 ||| (q.2 &&& fNX))

/-- 2^x (R122). DESIGN CHOICE (log entry 62): a subnormal result that is exact, as for x = -130, raises neither UF nor NX; the
comment of R122 does not say whether its UF and NX stand where no rounding is inexact (R114). -/
def fexp2 (a : Nat) : Nat × BitVec 5 :=
  match Fmt.f32.dec a with
  | .nan s => nanOut .f32 s
  | .inf neg => (if neg then 0 else Fmt.f32.inf, 0)
  | .fin neg m e =>
    let x := Ex.of neg m e
    if (0 : Int) ≤ (x.add ⟨-128, 0⟩).m then (Fmt.f32.inf, fOF ||| fNX)
    else if (x.add ⟨150, 0⟩).m < 0 then (0, fUF ||| fNX)
    else
      let nm := (roundAt rne neg m e 0).1
      let n : Int := if neg then -(nm : Int) else nm
      let f := (rndEx .f32 rne (x.add ⟨-n, 0⟩) false).1
      let p := expSteps f [coef 11453439 (-33), coef 10327388 (-30), coef 14899271 (-28), coef 16121328 (-26),
        coef 11629080 (-24), coef 1 0] (coef 10585226 (-36), 0)
      match Fmt.f32.dec p.1 with
      | .fin s pm pe =>
        let r := rnd .f32 rne s pm (pe + n)
        (r.1, r.2 ||| p.2)
      | _ => p

/-- The refinement steps of R123. -/
def rcpSteps (m : Nat) : Nat → Nat × BitVec 5 → Nat × BitVec 5
  | 0, y => y
  | k + 1, y =>
    let t := ffma .f32 rne (fneg .f32 m) y.1 (coef 1 0)
    let z := ffma .f32 rne y.1 t.1 y.1
    rcpSteps m k (z.1, y.2 ||| (t.2 &&& fNX) ||| (z.2 &&& fNX))

/-- 1/x approximated (R123). -/
def frcp (a : Nat) : Nat × BitVec 5 :=
  match Fmt.f32.dec a with
  | .nan s => nanOut .f32 s
  | .inf neg => (Fmt.f32.sign neg, 0)
  | .fin neg m e =>
    if m = 0 then (Fmt.f32.sign neg + Fmt.f32.inf, fDZ)
    else
      let k : Int := (Nat.log2 m : Int)
      let mm := (rnd .f32 rne false m (-k)).1
      let seed := ffma .f32 rne (fneg .f32 (coef 15790321 (-23))) mm (coef 11842741 (-22))
      let y := rcpSteps mm 3 (seed.1, seed.2 &&& fNX)
      match Fmt.f32.dec y.1 with
      | .fin ys ym ye =>
        let r := rnd .f32 rne (neg != ys) ym (ye - (k + e))
        (r.1, r.2 ||| y.2)
      | _ => y

/-- VADDC's rounded sum, its exact error and its flags (R124). -/
def faddc (a b : Nat) : Nat × Nat × BitVec 5 :=
  let s := fadd .f32 rne a b
  match Fmt.f32.dec a, Fmt.f32.dec b, Fmt.f32.dec s.1 with
  | .fin sa ma ea, .fin sb mb eb, .fin ss ms es =>
    let d := ((Ex.of sa ma ea).add (Ex.of sb mb eb)).add (Ex.of (!ss) ms es)
    (s.1, (rndEx .f32 rne d false).1, s.2)
  | _, _, _ => (s.1, 0, s.2)

/-! ### Conversion (R109, R117) -/

/-- The integer form of a KQ4 code (R109). -/
def kq4 (c : Nat) : Int :=
  match c with
  | 0 => -256 | 1 => -181 | 2 => -139 | 3 => -107 | 4 => -80 | 5 => -54 | 6 => -27 | 7 => 0
  | 8 => 21 | 9 => 43 | 10 => 66 | 11 => 92 | 12 => 122 | 13 => 159 | 14 => 205 | _ => 256

/-- A format of R295: an integer with its width and signedness, a floating format, or KQ4. -/
inductive CFmt where
  | int (n : Nat) (sgn : Bool)
  | flt (f : Fmt)
  | kq4
  deriving DecidableEq, Repr

/-- The format of a code of R295. -/
def convFmt (c : BitVec 4) : CFmt :=
  match c.toNat with
  | 0 => .int 8 true | 1 => .int 16 true | 2 => .int 32 true | 3 => .int 64 true
  | 4 => .int 8 false | 5 => .int 16 false | 6 => .int 32 false | 7 => .int 64 false
  | 8 => .flt .f16 | 9 => .flt .e8m7 | 10 => .flt .f32 | _ => .kq4

/-- The width of a format (R117). -/
def CFmt.width : CFmt → Nat
  | .int n _ => n
  | .flt f => f.width
  | .kq4 => 4

/-- The range of an integer format. -/
def intRange (n : Nat) (sgn : Bool) : Int × Int :=
  if sgn then (-(2 ^ (n - 1) : Nat), (2 ^ (n - 1) : Nat) - 1) else (0, (2 ^ n : Nat) - 1)

/-- A clamped integer as an element of `ew` bits (R117, rule 4). -/
def intOut (ew n : Nat) (sgn : Bool) (x : Int) : Nat :=
  let r := intRange n sgn
  uval ew (clampInt r.1 r.2 x)

/-- An exact rational rounded to an integer by FRM. -/
def roundInt (mode : RMode) (neg : Bool) (m : Nat) (e : Int) : Int × Bool :=
  let r := roundAt mode neg m e 0
  (if neg then -(r.1 : Int) else r.1, r.2)

/-- VCVT of one element (R117). -/
def convert (ew : Nat) (mode : RMode) (dst src : CFmt) (v : Nat) : Nat × BitVec 5 :=
  match src, dst with
  | .int n sg, .int k tg => (intOut ew k tg (if sg then sval n v else (v % 2 ^ n : Nat)), 0)
  | .int n sg, .flt f =>
    let x : Int := if sg then sval n v else (v % 2 ^ n : Nat)
    rndEx f mode ⟨x, 0⟩ false
  | .kq4, .int k tg => (intOut ew k tg (kq4 (bits v 0 4)), 0)
  | .kq4, .flt f => rndEx f mode ⟨kq4 (bits v 0 4), -8⟩ false
  | .flt f, .int k tg =>
    (match f.dec v with
     | .nan _ => (0, fNV)
     | .inf neg => (intOut ew k tg (if neg then -(2 ^ 70 : Nat) else (2 ^ 70 : Nat)), fNV)
     | .fin neg m e =>
       let x := roundInt mode neg m e
       let r := intRange k tg
       if x.1 < r.1 ∨ r.2 < x.1 then (intOut ew k tg x.1, fNV) else (intOut ew k tg x.1, if x.2 then fNX else 0))
  | .flt f, .flt g =>
    (match f.dec v with
     | .nan s => nanOut g s
     | .inf neg => (g.sign neg + g.inf, 0)
     | .fin neg m e => rnd g mode neg m e)
  | _, .kq4 => (0, 0)

/-! ### Bank arithmetic (R157, R326) -/

/-- The new value of a bank operation at width `w` on the old value with operand and comparand. -/
def bankOp (w op old x c : Nat) : Nat :=
  let o := old % 2 ^ w
  let b := x % 2 ^ w
  match op with
  | 0 => b
  | 1 => if o = c % 2 ^ w then b else o
  | 2 => (o + b) % 2 ^ w
  | 3 => o &&& b
  | 4 => o ||| b
  | 5 => o ^^^ b
  | 6 => if sval w o ≤ sval w b then o else b
  | 7 => if sval w b ≤ sval w o then o else b
  | 8 => min o b
  | 9 => max o b
  | _ => (fadd .f32 rne o b).1

end Sys2Proof.Machine
end

