-- ==== Sys2Proof/Machine/Context.lean ====
section
/-! DEFINITION. The saved context of a wave: its image in the save area, saving, restoring, leaving a cluster, and the
supervisor's event records (R92, R137, R196, R205, R209, R242, R243, R248 to R252). -/

namespace Sys2Proof.Machine

/-! ### Event records (R242, R243) -/

/-- An event record written to the ring of a die, then PROD (R242); the record covers a whole sector (R254). -/
def ringWrite (s : State) (die : Nat) (d0 d1 d2 d3 : Nat) : State :=
  let ring := 0x80000 + 0x4000 * die
  let k := Memory.readN s.mem ring 8
  let r := ring + 0x20 * (1 + k % 511)
  let m := Memory.writeN (Memory.writeN (Memory.writeN (Memory.writeN s.mem r 8 d0) (r + 8) 8 d1) (r + 16) 8 d2) (r + 24) 8 d3
  { s with mem := Memory.writeN m ring 8 (k + 1), poison := clearPoison s.poison r 32 }

/-- Doubleword 1 of an event record (R243). -/
def recordWord (kind cause : Nat) (asid : BitVec 16) (die cl : Nat) (corr : Bool) (unit idx : Nat) : Nat :=
  kind * 2 ^ 56 + cause * 2 ^ 48 + asid.toNat * 2 ^ 32 + die % 16 * 2 ^ 28 + cl % 64 * 2 ^ 22 + b2n corr * 2 ^ 21 +
    unit % 128 * 2 ^ 14 + idx % 2 ^ 14

/-- An event record about the focused wave. -/
def waveRecord (s : State) (kind cause : Nat) (corr : Bool) (unit idx : Nat) (pc val : U64) : State :=
  ringWrite s s.w.die s.w.wid.toNat (recordWord kind cause s.w.asid s.w.die s.w.cl corr unit idx) pc.toNat val.toNat

/-! ### Spans of the save region -/

/-- Where up to 4 KiB from an address of the focused wave's save region lie, or the fault of their access with its address. An address in
the aperture is not translated: it is the team's scratchpad, and PAGE where that ends or is not resident (R146, R195). -/
def pageTarget (s : State) (acc : Acc) (va n : Nat) : Except (BitVec 8 × U64) Target :=
  let a := va % 2 ^ 60
  if inAperture a then
    let off := bits a 0 40
    if s.myTeam.cl.isNone ∨ s.myTeam.bytes ≤ off then .error (0x05, BitVec.ofNat 64 va)
    else if s.myTeam.bytes < off + n then .error (0x05, BitVec.ofNat 64 (va + (s.myTeam.bytes - off)))
    else .ok (.sp off)
  else
    match translate s s.w.asid s.w.sup acc a with
    | .ok (.pkg pa) => .ok (.pkg pa)
    | .ok _ => .error (0x07, BitVec.ofNat 64 va)
    | .error c => .error (c, BitVec.ofNat 64 va)

/-- Where consecutive pages lie, `n` bytes in all, or the first fault with its address. -/
def pagesFrom (s : State) (acc : Acc) : Nat → Nat → Nat → Except (BitVec 8 × U64) (List Target)
  | 0, _, _ => .ok []
  | k + 1, va, n =>
    match pageTarget s acc va (min n 4096) with
    | .error e => .error e
    | .ok g =>
      match pagesFrom s acc k (va + 4096) (n - 4096) with
      | .error e => .error e
      | .ok l => .ok (g :: l)

/-- Where the pages of a span of `n` bytes lie. -/
def spanPas (s : State) (acc : Acc) (va n : Nat) : Except (BitVec 8 × U64) (List Target) := pagesFrom s acc (ceilDiv n 4096) va n

/-- Memory with a range of bytes set to 0. -/
def Memory.clear (m : List Host.Cell) (lo n : Nat) : List Host.Cell :=
  m.filter (fun c => !(decide (lo ≤ c.1) && decide (c.1 < lo + n)))

/-- Bytes at a place of a span set to 0; sectors and doublewords covered whole hold no error any more (R253, R254). -/
def placeClear (s : State) (g : Target) (n : Nat) : State :=
  match g with
  | .pkg pa => { s with mem := Memory.clear s.mem pa n, poison := clearPoison s.poison pa n }
  | .sp off =>
    let t := s.myTeam
    s.setTeam s.w.team { t with sp := Memory.clear t.sp off n
                                bad := t.bad.filter (fun k => !(decide (off ≤ 8 * k) && decide (8 * k + 8 ≤ off + n))) }
  | .win _ _ => s

/-- A value written at a place of a span. -/
def placePut (s : State) (g : Target) (n v : Nat) : State :=
  match g with
  | .pkg pa => { s with mem := Memory.writeN s.mem pa n v }
  | .sp off => s.setTeam s.w.team { s.myTeam with sp := Memory.writeN s.myTeam.sp off n v }
  | .win _ _ => s

/-- The first `n` bytes of a span set to 0. -/
def spanClear (s : State) : List Target → Nat → State
  | [], _ => s
  | g :: t, n => spanClear (placeClear s g (min n 4096)) t (n - 4096)

/-- The place of an offset in a span. -/
def spanAt (pas : List Target) (off : Nat) : Target := (pas.getD (off / 4096) (.pkg 0)).shift (off % 4096)

/-- A value read at an offset of a span. -/
def spanRead (s : State) (pas : List Target) (off n : Nat) : Nat :=
  match spanAt pas off with
  | .pkg pa => Memory.readN s.mem pa n
  | .sp o => Memory.readN s.myTeam.sp o n
  | .win _ _ => 0

/-- The entries (offset, size, value) written into a span; a value of 0 needs no writing after `spanClear`. -/
def spanPut (s : State) (pas : List Target) : List (Nat × Nat × Nat) → State
  | [] => s
  | (off, n, v) :: t => spanPut (if v = 0 then s else placePut s (spanAt pas off) n v) pas t

/-- A span of `n` bytes at an address of the save region replaced by the entries listed; a BWAIT sees what is written to the
scratchpad. -/
def spanWrite (s : State) (va n : Nat) (ents : List (Nat × Nat × Nat)) : Except (BitVec 8 × U64) State :=
  match spanPas s Acc.store va n with
  | .error e => .error e
  | .ok pas =>
    let t := spanPut (spanClear s pas n) pas ents
    .ok (if inAperture (va % 2 ^ 60) then wakeBarriers t s.w.team else t)

/-- Whether a failed link holds an access to a span: a walk or a page of it lies over a route that crosses one (R262). -/
def spanHeld (s : State) (x : Nat × Nat) : Bool :=
  (List.range (ceilDiv x.2 4096)).any (fun k =>
    let va := (x.1 + 4096 * k) % 2 ^ 60
    !inAperture va && (walkHeld s s.w.asid va ||
      (match translate s s.w.asid s.w.sup Acc.load va with
       | .ok g => tripHeld s s.w.die g
       | .error _ => false)))

/-- The base of the focused wave's save area (R196). -/
def State.saveArea (s : State) : Nat := s.myTeam.base.toNat + s.w.member * 0x410000

/-- The base of the focused wave's tile area (R196). -/
def State.tileArea (s : State) : Nat := s.myTeam.base.toNat + s.myTeam.size * 0x410000 + s.w.member * 0x10000

/-! ### The queue segment (R51, R92) -/

/-- The boundary whose storage a VP's incoming queue uses: lane boundary j for wave lane j (the wrap for lane 0). -/
def bndOf (lanes vp : Nat) : Nat := vp % lanes
/-- The seed boundary. -/
def seedBnd : Nat := 16
/-- The take boundary. -/
def takeBnd : Nat := 17

/-- The 16-byte entries of one boundary in push order, from an offset. -/
def bndEntries (off : Nat) : List XEntry → List (Nat × Nat × Nat)
  | [] => []
  | e :: t => (off, 8, e.val.toNat) :: (off + 8, 8, 2 ^ 63 + e.vp) :: bndEntries (off + 16) t

/-- The queue segment's contents as entries of a span (R92). -/
def qsegEntries (w : Wave) : List (Nat × Nat × Nat) :=
  (List.range w.lanes).flatMap (fun j => bndEntries (256 * j) (w.xq.filter (fun e => e.bnd == j))) ++
  bndEntries 0x40 (w.xq.filter (fun e => e.bnd == seedBnd)) ++
  bndEntries (256 * (w.lanes - 1) + 0x80) (w.xq.filter (fun e => e.bnd == takeBnd))

/-- One boundary read back: its entries, or none when a reserved bit is set or an entry stands after an absent one. A VP index in an
absent entry counts as a reserved bit: DESIGN CHOICE (log entry 67), R92 writes zeros there and names only reserved bits. -/
def bndRead (s : State) (pas : List Target) (bnd : Nat) : Nat → Nat → Bool → Option (List XEntry)
  | 0, _, _ => some []
  | n + 1, off, ended =>
    let v := spanRead s pas off 8
    let d := spanRead s pas (off + 8) 8
    if bits d 14 49 != 0 then none
    else if bits d 63 1 == 0 then
      if bits d 0 14 != 0 then none else bndRead s pas bnd n (off + 16) true
    else if ended then none
    else (bndRead s pas bnd n (off + 16) false).map (fun l => ⟨bnd, bits d 0 14, BitVec.ofNat 64 v⟩ :: l)

/-- The offsets of the 64-byte parts of the queue segment that R92 writes as 0. -/
def zeroParts (lanes : Nat) : List Nat :=
  (List.range lanes).flatMap (fun j =>
    (if j = 0 then [] else [256 * j + 0x40]) ++ (if j + 1 = lanes then [] else [256 * j + 0x80]) ++ [256 * j + 0xC0])

/-- The queue segment read back (R92): none when a part that is written as 0 is not. -/
def qsegRead (s : State) (pas : List Target) (lanes : Nat) : Option (List XEntry) :=
  let parts := (List.range lanes).map (fun j => bndRead s pas j 4 (256 * j) false) ++
    [bndRead s pas seedBnd 4 0x40 false, bndRead s pas takeBnd 4 (256 * (lanes - 1) + 0x80) false]
  if (zeroParts lanes).any (fun off => (List.range 8).any (fun k => spanRead s pas (off + 8 * k) 8 != 0)) then none
  else parts.foldr (fun p acc => match p, acc with | some l, some a => some (l ++ a) | _, _ => none) (some [])

/-! ### The context image (R249) -/

/-- The dwords of a list written from an offset. -/
def dwordsFrom (off : Nat) : List Nat → List (Nat × Nat × Nat)
  | [] => []
  | v :: t => (off, 8, v) :: dwordsFrom (off + 8) t

/-- The 32-bit words of a list written from an offset. -/
def wordsFrom (off : Nat) : List (BitVec 32) → List (Nat × Nat × Nat)
  | [] => []
  | v :: t => (off, 4, v.toNat) :: wordsFrom (off + 4) t

/-- The address-table doubleword of a VP (R249, R308): the replay index in [63:60] and the address. -/
def vpAddr (runs : List Run) : VpSt → Nat
  | .run r _ rep _ _ => rep * 2 ^ 60 + (((runs.find? (fun x => x.id == r)).map (fun x => x.addr.toNat % 2 ^ 60)).getD 0)
  | .thread a => a.toNat % 2 ^ 60
  | .parked a => a.toNat % 2 ^ 60
  | .caught a => a.toNat % 2 ^ 60
  | .pend a _ => a.toNat % 2 ^ 60

/-- Whether a run is a thread-mode block. -/
def RunKind.isThread : RunKind → Bool
  | .thread _ => true
  | _ => false

/-- The state code of a VP record (R249). -/
def vpCode (runs : List Run) : VpSt → Nat
  | .run r _ _ _ _ => if ((runs.find? (fun x => x.id == r)).map (fun x => x.kind.isThread)).getD false then 3 else 1
  | .thread _ => 2
  | .parked _ => 4
  | .caught _ => 5
  | .pend _ _ => 6

/-- The held word index of a VP record. -/
def vpWord : VpSt → Nat
  | .run _ pos _ _ _ => min pos 63
  | .pend _ iw => iw - 1
  | _ => 0

/-- The distinct addresses of the VPs, in the order of first use (R250). -/
def addrTable (w : Wave) : List Nat := (w.vps.map (fun e => vpAddr w.runs e.2)).eraseDups

/-- The VP records as entries of a span. -/
def vpEntries (w : Wave) (tab : List Nat) : List (Nat × Nat × Nat) :=
  w.vps.map (fun e => (4 * e.1, 4, vpCode w.runs e.2 * 2 ^ 29 + vpWord e.2 * 2 ^ 23 + tab.idxOf (vpAddr w.runs e.2) * 2 ^ 12))

/-- A queue entry's 32 bytes (R249): word and upper half, address, two scalar operands. The upper half of the first
doubleword holds the third operand of a strided VAMO (log entry 20). -/
def queueDwords (e : QEntry) : List Nat :=
  [e.word.toNat + e.z.toNat % 2 ^ 32 * 2 ^ 32, e.pc.toNat, e.x.toNat, e.y.toNat]

/-- The grace timer and the handler's timer as the image records them: running, expired, an event deferred (R134, R239). -/
def timerBits (w : Wave) : Nat :=
  b2n w.bud.grace + b2n w.bud.graceHit * 2 + b2n (w.trp.inh && (w.bud.preempt || w.bud.exhaust.isSome || w.bud.graceHit)) * 4

/-- The doublewords at 0x0500 (R249 lists their contents and not their places: log entry 20): the last ones are the reservations of the
first 18 blocks held, ticks in the lower half. -/
def area500 (w : Wave) (pc : U64) : List Nat :=
  [pc.toNat, b2n w.sup, w.trp.epc.toNat * 4, w.trp.ecause, w.trp.eval.toNat, w.dbg.value, w.asid.toNat, w.stamp,
    w.depth + w.limit * 256, w.bud.remT.toNat, w.bud.remS.toNat, w.bud.pendT.toNat, w.bud.pendS.toNat, timerBits w] ++
  (w.runs.take 18).map (fun r => r.rsvT % 2 ^ 32 + r.rsvS % 2 ^ 32 * 2 ^ 32)

/-- Bytes 0x0000 to 0x2FFF of the context image. -/
def imageLow (s : State) (pc : U64) : List (Nat × Nat × Nat) :=
  let w := s.w
  dwordsFrom 0 (0 :: (w.s.toList.drop 1).map BitVec.toNat) ++
  dwordsFrom 0x100 ((List.range 128).map (fun n => (s.crValue n).toNat)) ++
  dwordsFrom 0x500 (area500 w pc) ++
  w.vregs.map (fun e => (0x600 + 8 * e.1, 8, (match e.2.st with | .released => 0 | .live => 1 | .spilled => 2) * 2 ^ 62 + e.2.tag)) ++
  dwordsFrom 0x800 (w.frontier.flatMap (fun e => [2 ^ 63 + e.prio, e.addr.toNat])) ++
  dwordsFrom 0x900 ((List.range 8).map (fun n => (spGet ({} : Wm) w.wm n).base.toNat)) ++
  (match w.mepi with
   | none => []
   | some p => wordsFrom 0x940 p.words ++ wordsFrom 0x980 p.scal ++ [(0xE00, 4, p.word.toNat)]) ++
  dwordsFrom 0xA00 (w.vq.flatMap queueDwords) ++
  (List.range 8).flatMap (fun k => dwordsFrom (0x1000 + 0x400 * k) ((List.range 128).map (fun j => bits (w.masks.toList.getD k 0).toNat (64 * j) 64)))

/-- A size rounded up to a multiple of 256 (R251). -/
def round256 (n : Nat) : Nat := ceilDiv n 256 * 256

/-- The slot of a register as entries of a span (R92). -/
def regEntries (ew : Nat) (r : VReg) : List (Nat × Nat × Nat) := r.elems.map (fun e => (e.1 * (ew / 8), ew / 8, e.2.toNat))

/-- The live registers written to their slots. -/
def saveRegs (s : State) (area : Nat) : List (Nat × VReg) → Except (BitVec 8 × U64) State
  | [] => .ok s
  | (n, r) :: t =>
    if r.st = .live then
      match spanWrite s (area + 0x10000 * (n + 1)) (r.tag * (s.w.ew / 8)) (regEntries s.w.ew r) with
      | .ok s' => saveRegs s' area t
      | .error e => .error e
    else saveRegs s area t

/-- Tiles written to the focused wave's tile area (R212, R216). -/
def saveTileWords (s : State) (tiles : List (Nat × BitVec 32)) : Except (BitVec 8 × U64) State :=
  spanWrite s s.tileArea 0x10000 (tiles.map (fun e => (4 * e.1, 4, e.2.toNat)))

/-- The tiles of the focused wave written to its tile area. -/
def saveTiles (s : State) : Except (BitVec 8 × U64) State := saveTileWords s s.w.tiles

/-- The tiles read back from the tile area. -/
def loadTiles (s : State) : Except (BitVec 8 × U64) State :=
  match spanPas s Acc.load s.tileArea 0x10000 with
  | .error e => .error e
  | .ok pas =>
    .ok (s.setW { s.w with tiles := (List.range 16384).filterMap (fun k =>
      let v := spanRead s pas (4 * k) 4
      if v = 0 then none else some (k, BitVec.ofNat 32 v)) })

/-- The context written to the save area with a resume PC (R137, R249, R251); nothing changes when an access faults. -/
def saveContext (s : State) (pc : U64) : Except (BitVec 8 × U64) State := do
  let area := s.saveArea
  let tab := addrTable s.w
  let s1 ← spanWrite s area 0x3000 (imageLow s pc)
  let s2 ← spanWrite s1 (area + 0x3000) (round256 (4 * s.w.cfg.vl)) (vpEntries s.w tab)
  let s3 ← spanWrite s2 (area + 0xB000) (round256 (8 * tab.length)) (dwordsFrom 0 tab)
  let s4 ← if s.w.qseg = .live then spanWrite s3 (area + 0xF000) (256 * s.w.lanes) (qsegEntries s.w) else .ok s3
  let s5 ← saveRegs s4 area s.w.vregs
  if s.myCluster.owner = some s.w.id then saveTiles s5 else .ok s5

/-! ### Leaving a cluster (R74, R148, R205, R209) -/

/-- The teams whose scratchpad is resident on a cluster. -/
def State.clusterTeams (s : State) (die cl : Nat) : List (Nat × Team) :=
  s.teams.filter (fun t => decide (t.2.die = die ∧ t.2.cl = some cl))

/-- Carve units that the resident scratchpads use (R149). -/
def usedUnits (s : State) (die cl : Nat) : Nat := (s.clusterTeams die cl).foldl (fun x t => x + ceilDiv t.2.kib 32) 0

/-- Whether the residents' segments fit a pool on every lane (R74). -/
def fitsPool (s : State) (die cl pool : Nat) : Bool :=
  (List.range 16).all (fun l =>
    decide ((s.residents die cl).foldl (fun x w => x + if w.base ≤ l ∧ l < w.base + w.lanes then w.hold else 0) 0 ≤ pool))

/-- Extension units returned to L1 one at a time while R74's two conditions hold; `fuel` bounds the units. -/
def returnUnits (s : State) (die cl : Nat) : Nat → State
  | 0 => s
  | fuel + 1 =>
    let c := s.cluster die cl
    if 0 < c.uext ∧ fitsPool s die cl (c.pool - 8) = true ∧ progress (c.pool - 8) (s.quotas die cl 0) = true then
      returnUnits (s.setCluster die cl { c with uext := c.uext - 1, ul1 := c.ul1 + 1 }) die cl fuel
    else s

/-- Free scratchpad units above 16 returned to L1 (R148). -/
def returnScratch (s : State) (die cl : Nat) : State :=
  let c := s.cluster die cl
  let keep := max 16 (usedUnits s die cl)
  if keep < c.usp then s.setCluster die cl { c with usp := keep, ul1 := c.ul1 + (c.usp - keep) } else s

/-- The scratchpad of the focused wave's team written to its image (R205). -/
def saveScratch (s : State) : Except (BitVec 8 × U64) State :=
  let t := s.myTeam
  match spanWrite s (t.base.toNat + t.size * 0x420000) t.bytes (t.sp.map (fun c => (c.1, 1, c.2.toNat))) with
  | .ok s' => .ok (s'.setTeam s.w.team { t with cl := none, sp := [], bad := [] })
  | .error e => .error e

/-- Whether another member of the focused wave's team is resident. -/
def otherResident (s : State) : Bool := s.others.any (fun w => w.team == s.w.team && w.isResident)

/-- The team's scratchpad as the focused wave leaves: kept while another member is resident, otherwise written to its image
(R205). -/
def leaveScratch (s : State) : Except (BitVec 8 × U64) State :=
  if otherResident s then .ok s
  else if s.myTeam.kib = 0 then .ok (s.setTeam s.w.team { s.myTeam with cl := none })
  else saveScratch s

/-- The slots of the live registers, with their lengths. -/
def liveSpans (w : Wave) (area : Nat) : List (Nat × Nat) :=
  (w.vregs.filter (fun e => decide (e.2.st = .live))).map (fun e => (area + 0x10000 * (e.1 + 1), e.2.tag * (w.ew / 8)))

/-- The spans that a save of the focused wave writes and a restore reads (R251), the scratchpad's image with them. -/
def saveSpans (s : State) : List (Nat × Nat) :=
  let area := s.saveArea
  let t := s.myTeam
  let low : List (Nat × Nat) := [(area, 0x3000), (area + 0x3000, round256 (4 * s.w.cfg.vl)), (area + 0xB000, round256 (8 * (addrTable s.w).length))]
  let seg : List (Nat × Nat) := if s.w.qseg = .live then [(area + 0xF000, 256 * s.w.lanes)] else []
  let tiles : List (Nat × Nat) := if s.w.wantsMat || s.myCluster.owner == some s.w.id then [(s.tileArea, 0x10000)] else []
  let image : List (Nat × Nat) := if otherResident s then [] else [(t.base.toNat + t.size * 0x420000, t.bytes)]
  low ++ seg ++ liveSpans s.w area ++ tiles ++ image

/-- Whether a failed link holds the save of the focused wave, or its restore (R262). -/
def saveHeld (s : State) : Bool := !s.pkg.failedLinks.isEmpty && (saveSpans s).any (spanHeld s)

/-- The cluster after a wave has left it: it stands in no queue of the matrix unit, an owner's tiles are saved (R213), the unit keeps
those of a wave that no longer owns it (R212), and units return to L1. -/
def clusterAfterLeave (s : State) (die cl id : Nat) : State :=
  let c := s.cluster die cl
  let s1 := s.setCluster die cl { c with
    macq := c.macq.filter (· != id)
    misses := (c.misses.map (fun m => { m with waiters := m.waiters.filter (fun x => x.1 != id) })).filter (fun m => m.done.isNone || !m.waiters.isEmpty)
    fmiss := c.fmiss.filter (fun x => x.wave != id)
    owner := if c.owner = some id then none else c.owner
    tileOf := if c.owner = some id then none else c.tileOf
    kept := if c.tileOf = some id ∧ c.owner ≠ some id then s.w.tiles else c.kept
    keptBad := if c.tileOf = some id ∧ c.owner ≠ some id then s.w.badRows else c.keptBad }
  returnUnits (returnScratch s1 die cl) die cl 16

/-- The focused wave leaves for its die's resume list (R202, R209), its matrix ownership ended and its claim kept (R213). Its pending
credits stand in its image from now on; those that come later are kept apart and added (R138; log entry 20). -/
def leaveSaved (s : State) (pc : U64) : State :=
  let w := s.w
  let die := w.die
  let d := s.die die
  let owned := decide (s.myCluster.owner = some w.id)
  let w' : Wave := { w with
    place := .saved die d.orders
    active := false
    pc := pc
    wait := none
    leaving := false
    latches := []
    vland := []
    saveFault := false
    wantsMat := w.wantsMat || owned
    tiles := if owned then [] else w.tiles
    badRows := if owned then [] else w.badRows
    vregs := w.vregs.map (fun e => (e.1, if e.2.st = .live then { e.2 with elems := [] } else e.2))
    bud := { w.bud with grace := false, graceHit := false, exhaust := none, preempt := false, preemptSent := false,
                         deferred := false, asked := false, pendT := 0, pendS := 0 } }
  let s1 := clusterAfterLeave ((s.setW w').setDie die { d with orders := d.orders + 1 }) die w.cl w.id
  s1.setW { s1.w with tiles := [], badRows := [] }

/-- A save that faults: the wave stays resident and does not issue, and a record of kind 0x31 is written (R252). -/
def saveFaulted (s : State) (e : BitVec 8 × U64) : State :=
  let s1 := waveRecord s 0x31 0 false 0 0 s.w.pc e.2
  s1.setW { s1.w with saveFault := true, active := false }

/-- The remainders recorded at a save (R138): max(b, 0), and 0 in a continuation. -/
def recordRemainders (s : State) : State :=
  let rem (b : U64) : U64 := if s.w.ctl.incont || b.msb then 0 else b
  s.setW { s.w with bud := { s.w.bud with remT := rem s.w.bud.ibgt, remS := rem s.w.bud.mbgt } }

/-- YIELD's and the forced full save's effect once nothing is in flight (R137): the context is written, the scratchpad too
when no other member is resident, and the wave leaves; a fault leaves it resident. -/
def saveAndLeave (s : State) (pc : U64) : State :=
  let s0 := recordRemainders (s.setW { s.w with savePc := pc })
  match saveContext s0 pc with
  | .error e => saveFaulted s0 e
  | .ok s1 =>
    match leaveScratch s1 with
    | .error e => saveFaulted s0 e
    | .ok s2 => leaveSaved s2 pc

/-- A unit's hold of a wave's tiles ended (R209). -/
def forgetTiles (s : State) (id : Nat) : State :=
  s.clusters.foldl (fun x e =>
    if e.2.tileOf = some id then { x with clusters := spSet {} x.clusters e.1 { e.2 with tileOf := none, kept := [], keptBad := [] } } else x) s

/-- The focused wave removed as EXIT removes it (R205, R209, R358): its registers, tiles, ownership and queue go; what it has
already sent still completes. DESIGN CHOICE (log entry 66): R205 has the scratchpad written to the team's image where other members are
saved away, and R252 speaks of a save of a context; where that write faults, EXIT ends the wave all the same and the contents are lost. -/
def removeWave (s : State) : State :=
  let w := s.w
  let t := s.myTeam
  let s0 :=
    if otherResident s then s
    else if t.left ≤ 1 then s.setTeam w.team { t with cl := none, sp := [], bad := [], kib := 0 }
    else match leaveScratch s with
      | .ok s' => s'
      | .error _ => s.setTeam w.team { t with cl := none }
  let t0 := s0.team w.team
  let s1 := s0.setTeam w.team { t0 with left := t0.left - 1, tfree := if t0.left ≤ 1 then 0 else t0.tfree }
  let s2 := forgetTiles s1 w.id
  let w' : Wave := { w with
    place := .gone w.die w.cl, active := false, wait := none, vregs := [], qseg := .released, xq := [], latches := [], vps := [],
    runs := [], frontier := [], serialVp := none, vq := [], fetches := [], mat := [], markers := [], offers := none, tiles := [], mepi := none,
    loads := [], vland := [], traps := [], fence := none, saveFault := false, leaving := false }
  clusterAfterLeave (s2.setW w') w.die w.cl w.id

/-! ### Restoring (R249, R252) -/

/-- A VP's record as it is read back: the VP, its state code, the held word index, the replay index and the address. -/
structure VpRec where
  vp : Nat
  st : Nat
  word : Nat
  rep : Nat
  addr : U64

/-- A record of the VP table, none of an idle VP; no answer when a field that must be zero is not, or the state code is 7 (R249). -/
def vpRecord (tab : Nat → Nat) (vp rec : Nat) : Option (Option VpRec) :=
  let st := bits rec 29 3
  let wi := bits rec 23 6
  let dw := tab (bits rec 12 11)
  if bits rec 0 12 != 0 then none
  else if st = 0 then (if rec = 0 then some none else none)
  else if st = 7 || (wi != 0 && (st == 2 || st == 4 || st == 5)) then none
  else some (some ⟨vp, st, wi, bits dw 60 4, BitVec.ofNat 64 (bits dw 0 60)⟩)

/-- How many entries of the address table the records of the first `n` VPs name (R251). -/
def tabUsed (rec : Nat → Nat) (n : Nat) : Nat :=
  (List.range n).foldl (fun x v => if bits (rec v) 29 3 = 0 then x else max x (bits (rec v) 12 11 + 1)) 0

/-- The VP table read back from VP `vp` on. -/
def vpRecords (tab : Nat → Nat) (rec : Nat → Nat) : Nat → Nat → Option (List VpRec)
  | 0, _ => some []
  | n + 1, vp =>
    match vpRecord tab vp (rec vp), vpRecords tab rec n (vp + 1) with
    | some none, some l => some l
    | some (some x), some l => some (x :: l)
    | _, _ => none

/-- Whether a run is the block that a record of a held VP names. -/
def VpRec.isOf (x : VpRec) (lanes : Nat) (r : Run) : Bool :=
  r.addr == x.addr && r.kind.isThread == (x.st == 3) && (match r.kind with | .thread l => l == x.vp % lanes | _ => true)

/-- The run of a held VP's record: the one in which it was held, or another one of the same block. -/
def heldRun (w : Wave) (x : VpRec) : Option Run :=
  let own := match lkGet w.vps x.vp with
    | some (.run id _ _ _ _) => w.runs.find? (fun r => r.id == id && x.isOf w.lanes r)
    | _ => none
  match own with
  | some r => some r
  | none => w.runs.find? (x.isOf w.lanes)

/-- The lowest run number in use nowhere in the wave. -/
def Wave.freshRun (w : Wave) : Nat := (w.runs.foldl (fun x r => max x (r.id + 1)) 0)

/-- Runs for held VPs whose records name blocks that the wave did not hold, as an edited image can (R249), with the block read now; a
block that cannot be read is a restore fault (DESIGN CHOICE, log entry 20). -/
def addHeldRuns (s : State) : List VpRec → Except (BitVec 8 × U64) State
  | [] => .ok s
  | x :: t =>
    if (x.st = 1 ∨ x.st = 3) ∧ (heldRun s.w x).isNone then
      match namedBlock s x.addr with
      | .error e => .error e
      | .ok (h, ws) =>
        let k : RunKind := if x.st = 3 then .thread (x.vp % s.w.lanes) else .lockstep
        addHeldRuns (s.setW { s.w with runs := s.w.runs ++ [{ id := s.w.freshRun, kind := k, addr := x.addr, words := ws, idem := hdrIdem h }] }) t
    else addHeldRuns s t

/-- A VP's state from its record: it keeps what no record holds of it (log entry 20). -/
def vpState (w : Wave) (x : VpRec) : VpSt :=
  let tb : Option (U64 × Nat) × Bool := match lkGet w.vps x.vp with
    | some (.run _ _ _ tg b) => (tg, b)
    | _ => (none, false)
  if x.st = 1 ∨ x.st = 3 then .run (((heldRun w x).map (fun r => r.id)).getD 0) x.word x.rep tb.1 tb.2
  else if x.st = 2 then .thread x.addr
  else if x.st = 4 then .parked x.addr
  else if x.st = 5 then .caught x.addr
  else .pend x.addr (x.word + 1)

/-- A fetch added ahead of the queue, in ascending address order (R38). -/
def addFetch (l : List Fetch) (f : Fetch) : List Fetch :=
  l.filter (fun x => decide (x.addr.toNat ≤ f.addr.toNat)) ++ f :: l.filter (fun x => decide (f.addr.toNat < x.addr.toNat))

/-- The fetches of the caught VPs placed again, in ascending address order (R38); one that was re-sent after a flush stays so. -/
def caughtFetches (w : Wave) (l : List VpRec) : List Fetch :=
  ((l.filter (fun x => x.st == 5)).map (fun x => x.addr)).eraseDups.foldl (fun q a =>
    addFetch q { addr := a, resent := ((w.fetches.find? (fun f => f.addr == a)).map (fun f => f.resent)).getD false }) []

/-- A register's elements read back from its slot. -/
def regRestore (s : State) (pas : List Target) (ew tag : Nat) : List (Nat × U64) :=
  (List.range tag).filterMap (fun i =>
    let v := spanRead s pas (i * (ew / 8)) (ew / 8)
    if v = 0 then none else some (i, BitVec.ofNat 64 v))

/-- The live registers read back from their slots. -/
def regsRestore (s : State) (area ew : Nat) : List (Nat × VReg) → Except (BitVec 8 × U64) (List (Nat × VReg))
  | [] => .ok []
  | (n, r) :: t =>
    match regsRestore s area ew t with
    | .error e => .error e
    | .ok l =>
      if r.st = .live then
        match spanPas s Acc.load (area + 0x10000 * (n + 1)) (r.tag * (ew / 8)) with
        | .error e => .error e
        | .ok pas => .ok ((n, { r with elems := regRestore s pas ew r.tag }) :: l)
      else .ok ((n, r) :: l)

/-- The control registers read back from the image (R249): what the image holds, but for the budgets (R139), DIEID, CLID and
REGUSE, and for INCONT, which reads 0 after a restore (R137). -/
def crRestore (w : Wave) (d : Nat → Nat) : Wave :=
  let vcfg := d 0x001
  let ws := d 0x006
  let wc := d 0x007
  let rq := d 0x030
  { w with
    hdr := { w.hdr with dw7 := BitVec.ofNat 64 (d 0x013) }
    wid := BitVec.ofNat 64 (d 0x020)
    cfg := { w.cfg with
      vl := bits (d 0x000) 0 14, maxvl := bits (d 0x002) 0 14
      share := bits vcfg 32 9, nreg := bits vcfg 16 7
      blkc := BitVec.ofNat 3 (bits vcfg 4 3), ewc := BitVec.ofNat 2 (bits vcfg 2 2), nregc := BitVec.ofNat 2 vcfg
      quota := bits rq 0 9, floor := bits rq 16 9, qmax := bits rq 32 9
      vstart := BitVec.ofNat 6 (d 0x003), fflags := BitVec.ofNat 5 (d 0x004), frm := BitVec.ofNat 2 (d 0x005)
      nzcnt := BitVec.ofNat 14 (d 0x008), pvoff := BitVec.ofNat 64 (d 0x009) }
    ctl := { serial := bits ws 15 1 == 1, incont := false, dualfix := bits ws 6 1 == 1, ntrans := bits ws 5 1 == 1,
             short := bits ws 4 1 == 1, latinv := bits ws 3 1 == 1, rdrel := bits ws 2 1 == 1,
             dual := bits wc 2 1 == 1, lattrap := bits wc 1 1 == 1, rdreltrap := bits wc 0 1 == 1 }
    bud := { w.bud with cidx := BitVec.ofNat 4 (d 0x012), xpc := BitVec.ofNat 60 (d 0x014), xcause := BitVec.ofNat 8 (d 0x015) } }

/-- What 0x0500 holds read back, but for the remainders and pending credits, which placement reads (`savedBudget`), and for the timers,
which a restore stops (R137; log entry 20). -/
def areaRestore (w : Wave) (d : Nat → Nat) : Wave :=
  let ec := d 3
  let db := d 5
  { w with
    pc := BitVec.ofNat 64 (d 0), sup := bits (d 1) 0 1 == 1
    trp := { w.trp with
             epc := BitVec.ofNat 58 (d 2 / 4), inh := bits ec 63 1 == 1, ppriv := bits ec 62 1 == 1, rskip := bits ec 61 1 == 1,
             src := BitVec.ofNat 2 (bits ec 58 2), iw := BitVec.ofNat 7 (bits ec 40 7), vp := BitVec.ofNat 14 (bits ec 16 14),
             cause := BitVec.ofNat 8 ec, eval := BitVec.ofNat 64 (d 4) }
    dbg := { w.dbg with ena := bits db 63 1 == 1, laneMode := bits db 62 1 == 1, single := bits db 61 1 == 1,
                        baddr := BitVec.ofNat 58 (bits db 2 58), wmode := BitVec.ofNat 2 db }
    asid := BitVec.ofNat 16 (d 6), stamp := d 7
    depth := bits (d 8) 0 8, limit := bits (d 8) 8 8
    runs := (w.runs.zip (List.range w.runs.length)).map (fun e =>
      if e.2 < 18 then { e.1 with rsvT := bits (d (14 + e.2)) 0 32, rsvS := bits (d (14 + e.2)) 32 32 } else e.1) }

/-- The focused wave with the remainders and pending credits that its image holds, where the image can be read; credits that came after
the save are added (R138, R139). -/
def savedBudget (s : State) : Wave :=
  let w := s.w
  match spanPas s Acc.load s.saveArea 0x3000 with
  | .error _ => w
  | .ok pas =>
    let d (k : Nat) : U64 := BitVec.ofNat 64 (spanRead s pas (0x500 + 8 * k) 8)
    { w with bud := { w.bud with remT := d 9, remS := d 10, pendT := w.bud.pendT + d 11, pendS := w.bud.pendS + d 12 } }

/-- The vector queue read back: the entries of the image, each with what the image does not hold of it (log entry 20). -/
def queueRestore (old : List QEntry) (d : Nat → Nat) : List QEntry :=
  (List.range 32).filterMap (fun k =>
    let w := d (4 * k)
    if w = 0 then none
    else
      let o := old.getD k { word := 0, pc := 0 }
      some { o with word := BitVec.ofNat 32 w, pc := BitVec.ofNat 64 (d (4 * k + 1)), x := BitVec.ofNat 64 (d (4 * k + 2)),
                    y := BitVec.ofNat 64 (d (4 * k + 3)), z := BitVec.ofNat 64 (bits w 32 32), early := none, before := false })

/-- The epilogue program read back. -/
def mepiRestore (wd : Nat → Nat) : Option Mepi :=
  if wd 0xE00 = 0 then none
  else some ⟨BitVec.ofNat 32 (wd 0xE00), (List.range (bits (wd 0xE00) 6 4 + 1)).map (fun k => BitVec.ofNat 32 (wd (0x940 + 4 * k))),
    (List.range 32).map (fun k => BitVec.ofNat 32 (wd (0x980 + 4 * k)))⟩

/-- Frontier entries read back. -/
def frontierRestore (d : Nat → Nat) : List Entry :=
  (List.range 16).filterMap (fun k =>
    if bits (d (2 * k)) 63 1 == 1 then some ⟨bits (d (2 * k)) 0 6, BitVec.ofNat 64 (d (2 * k + 1))⟩ else none)

/-- Whether a doubleword that R249 writes as 0, or a reserved field of the rename table, is not. -/
def imageBad (d wd : Nat → Nat) : Bool :=
  (List.range 64).any (fun n => bits (d (0x600 + 8 * n)) 62 2 == 3 || bits (d (0x600 + 8 * n)) 14 48 != 0) ||
    (List.range 127).any (fun k => wd (0xE04 + 4 * k) != 0)

/-- The rename table read back; what it does not hold of a register stands in the wave's record, its errors among it (R253). -/
def renameRestore (w : Wave) (d : Nat → Nat) : List (Nat × VReg) :=
  (List.range 64).filterMap (fun n =>
    let e := d (0x600 + 8 * n)
    let old : VReg := spGet {} w.vregs n
    if e = 0 then none
    else some (n, { old with st := if bits e 62 2 = 1 then .live else if bits e 62 2 = 2 then .spilled else .released
                             tag := bits e 0 14, elems := [] }))

/-- The focused wave's context read back from its save area (R137, R249): none is a restore fault with the faulting address
(R252). The wave's place and team stand as they are. -/
def restoreContext (s : State) : Except (BitVec 8 × U64) State := do
  let area := s.saveArea
  let w0 := s.w
  let bad : BitVec 8 × U64 := (0x01, BitVec.ofNat 64 area)
  let low ← spanPas s Acc.load area 0x3000
  let d := fun off => spanRead s low off 8
  let w1 := areaRestore (crRestore w0 (fun n => d (0x100 + 8 * n))) (fun k => d (0x500 + 8 * k))
  let vpas ← spanPas s Acc.load (area + 0x3000) (round256 (4 * w1.cfg.vl))
  let vrec := fun v => spanRead s vpas (4 * v) 4
  let apas ← spanPas s Acc.load (area + 0xB000) (round256 (8 * tabUsed vrec w1.cfg.vl))
  let recs ← match vpRecords (fun k => spanRead s apas (8 * k) 8) vrec w1.cfg.vl 0 with
    | some l => .ok l
    | none => .error bad
  if imageBad d (fun off => spanRead s low off 4) then .error bad
  else
    let regs ← regsRestore s area w1.ew (renameRestore w0 d)
    let xq ← if w0.qseg = .live then
        (match spanPas s Acc.load (area + 0xF000) (256 * w1.lanes) with
         | .error e => .error e
         | .ok qp => match qsegRead s qp w1.lanes with
           | some l => .ok l
           | none => .error (0x01, BitVec.ofNat 64 (area + 0xF000)))
      else .ok w0.xq
    let s1 ← addHeldRuns (s.setW w1) recs
    let vps := recs.map (fun x => (x.vp, vpState s1.w x))
    .ok (s1.setW { s1.w with
      s := Vector.ofFn (fun (k : Fin 32) => BitVec.ofNat 64 (d (8 * k.val)))
      masks := Vector.ofFn (fun (k : Fin 8) =>
        BitVec.ofNat 8192 ((List.range 128).foldr (fun j x => d (0x1000 + 0x400 * k.val + 8 * j) + 2 ^ 64 * x) 0))
      vps := vps
      runs := s1.w.runs.filter (fun r => vps.any (fun e => match e.2 with | .run id _ _ _ _ => id == r.id | _ => false))
      fetches := caughtFetches w0 recs
      vregs := regs
      xq := xq
      frontier := frontierRestore (fun k => d (0x800 + 8 * k))
      wm := (List.range 8).foldl (fun l n =>
        let v := d (0x100 + 8 * (0x40 + n))
        spSet ({} : Wm) l n { v := bits v 63 1 == 1, cur := bits v 62 1 == 1, esz := BitVec.ofNat 2 (bits v 60 2),
                              waddr := BitVec.ofNat 60 (bits v 3 57 * 8), base := BitVec.ofNat 64 (d (0x900 + 8 * n)) }) []
      mepi := mepiRestore (fun off => spanRead s low off 4)
      vq := queueRestore w0.vq (fun k => d (0xA00 + 8 * k))
      latches := [] })

end Sys2Proof.Machine
end

