-- ==== Sys2Proof/Machine/Words.lean ====
section
/-! DEFINITION. What a word of a block names and costs: its source specifiers and registers, repeat frames, and the
reservation of a block (R127, R128, R288 to R291, R302, R305 to R308). -/

namespace Sys2Proof.Machine

/-- The opcode of a word (R285). -/
def opOf (w : BitVec 32) : Nat := bits w.toNat 24 8

/-- The floating and integer VCMP opcodes (R293). -/
def isCompare (op : Nat) : Bool := decide (op = 0x5E ∨ op = 0x65 ∨ op = 0x7A ∨ op = 0x84 ∨ op = 0x8B)

/-- The accumulate forms, which read vd (R288). -/
def isAccumulate (op : Nat) : Bool := decide (op = 0x53 ∨ op = 0x74 ∨ op = 0x75 ∨ op = 0x81 ∨ op = 0x88)

/-- The opcodes of formats V and VI. -/
def isArith (op : Nat) : Bool := decide (0x50 ≤ op ∧ op ≤ 0x8C)

/-- The cross-element instructions (R40). -/
def isCross (op : Nat) : Bool := decide (0x6A ≤ op ∧ op ≤ 0x70)

/-- Whether an opcode of formats V and VI has a second source specifier. -/
def hasSecond (op : Nat) : Bool :=
  isArith op && !decide ((0x60 ≤ op ∧ op ≤ 0x69) ∨ (0x6B ≤ op ∧ op ≤ 0x6E) ∨ op = 0x77 ∨ op = 0x7B ∨ op = 0x7C ∨ op = 0x8C)

/-- Whether an opcode of formats V and VI has a first source specifier. -/
def hasFirst (op : Nat) : Bool := isArith op && !decide (op = 0x66 ∨ op = 0x68)

/-- The source specifiers of a block word (R290). -/
def srcBytes (w : BitVec 32) : List Nat :=
  let n := w.toNat
  let op := opOf w
  if isArith op then (if hasFirst op then [bits n 8 8] else []) ++ (if hasSecond op then [bits n 0 8] else [])
  else if op = 0x48 then (if bits n 22 1 = 1 then [bits n 8 8] else [])
  else if op = 0xC1 then [bits n 8 8, bits n 0 8]
  else []

/-- Whether a word names `xin` (R290). -/
def namesXin (w : BitVec 32) : Bool := (srcBytes w).contains 0x44

/-- Whether a specifier names a register (K = 0). -/
def specIsReg (x : Nat) : Bool := bits x 6 1 == 0

/-- The registers that a word's source specifiers name. -/
def srcRegs (w : BitVec 32) : List Nat := ((srcBytes w).filter specIsReg).map (fun x => bits x 0 6)

/-- The registers that a word's source specifiers declare dead (R79). -/
def deadRegs (w : BitVec 32) : List Nat := ((srcBytes w).filter (fun x => specIsReg x && bits x 7 1 == 1)).map (fun x => bits x 0 6)

/-- The registers that a block word writes through vd. -/
def wordWrites (w : BitVec 32) : List Nat :=
  let n := w.toNat
  let op := opOf w
  let vd := bits n 17 6
  if op = 0x7D then (if bits n 16 1 = 0 then [vd, vd + 1] else [])
  else if isArith op && !isCompare op && op != 0x69 then (if bits n 16 1 = 0 then [vd] else [])
  else if op = 0x90 ∨ op = 0x95 then [vd]
  else []

/-- The registers that a word reads through fields other than its source specifiers. -/
def fieldReads (w : BitVec 32) : List Nat :=
  let n := w.toNat
  let op := opOf w
  let vd := bits n 17 6
  if isAccumulate op then [vd]
  else if op = 0x90 then [bits n 5 6]
  else if op = 0x91 ∨ op = 0x95 then [vd, bits n 5 6]
  else []

/-- The registers that a control-thread vector word names (R302, R220, R224, R229). -/
def queueRegs (w : BitVec 32) : List Nat :=
  let n := w.toNat
  let op := opOf w
  if 0x90 ≤ op ∧ op ≤ 0x96 then
    bits n 17 6 :: (bits n 17 6 + 1) :: (if op = 0x90 ∨ op = 0x91 ∨ op = 0x95 then (if 32 ≤ bits n 5 6 then [bits n 5 6 - 32] else [])
      else [bits n 5 6])
  else if op = 0x4B then [bits n 10 6]
  else if op = 0xB2 ∨ op = 0xB3 ∨ op = 0xB4 ∨ op = 0xB5 then
    (List.range 16).map (fun k => bits n 16 6 + k) ++ (List.range 16).map (fun k => bits n 10 6 + k)
  else []

/-- The registers that a block word declares dead when it commits, its destinations apart (R79, R81, R302). -/
def wordDead (w : BitVec 32) : List Nat :=
  let n := w.toNat
  let op := opOf w
  let l := if op = 0x90 ∨ op = 0x91 ∨ op = 0x95 then
      (if bits n 4 1 = 1 then [bits n 5 6] else []) ++ (if op = 0x91 ∧ bits n 16 1 = 1 then [bits n 17 6] else [])
    else []
  (deadRegs w ++ l).filter (fun r => !(wordWrites w).contains r)

/-- Every register that a word names, in a block or in the vector queue. -/
def wordRegs (w : BitVec 32) : List Nat := srcRegs w ++ wordWrites w ++ fieldReads w ++ queueRegs w

/-! ### Repeat frames (R305 to R308) -/

/-- A repeat frame: the position of its first word, its length, its replays and its stride. -/
structure Frame where
  start : Nat
  len : Nat
  cnt : Nat
  str : Nat
  deriving DecidableEq, Repr

/-- The frame that a REPF word at position `i` opens. -/
def frameAt (w : BitVec 32) (i : Nat) : Frame :=
  ⟨i + 1, bits w.toNat 10 4 + 1, bits w.toNat 20 4 + 1, bits w.toNat 14 6⟩

/-- The frame that holds the word at position `pos`, in a block whose words from position `i` are listed. -/
def frameOf : List (BitVec 32) → Nat → Nat → Option Frame
  | [], _, _ => none
  | w :: t, i, pos =>
    if opOf w = 0xC5 ∧ i < pos ∧ pos ≤ i + (frameAt w i).len then some (frameAt w i) else frameOf t (i + 1) pos

/-- How many times the word at a position is executed. -/
def replays (ws : List (BitVec 32)) (pos : Nat) : Nat :=
  match frameOf ws 0 pos with
  | none => 1
  | some f => f.cnt

/-- The number of executed words before a position and replay: the order of execution in the block (R307). -/
def linOf (ws : List (BitVec 32)) (pos rep : Nat) : Nat :=
  match frameOf ws 0 pos with
  | none => (List.range pos).foldl (fun x i => x + replays ws i) 0
  | some f => (List.range f.start).foldl (fun x i => x + replays ws i) 0 + rep * f.len + (pos - f.start)

/-- The number of words that one VP executes in a block without stopping. -/
def linTotal (ws : List (BitVec 32)) : Nat := linOf ws ws.length 0

/-- The position after a word (R307). -/
def nextPos (ws : List (BitVec 32)) (pos rep : Nat) : Nat × Nat :=
  match frameOf ws 0 pos with
  | none => (pos + 1, 0)
  | some f =>
    if pos + 1 < f.start + f.len then (pos + 1, rep)
    else if rep + 1 < f.cnt then (f.start, rep + 1)
    else (pos + 1, 0)

/-- Whether vd of a word of a frame names a register that a replay advances (R306, R307). -/
def advancesVd (w : BitVec 32) : Bool :=
  !isCompare (opOf w) && (bits w.toNat 16 1 == 0 || isAccumulate (opOf w))

/-- The word that a replay executes: vd and every K = 0 source specifier advanced by `k` registers (R307). -/
def stagger (w : BitVec 32) (k : Nat) : BitVec 32 :=
  let n := w.toNat
  let a := if advancesVd w then k * 2 ^ 17 else 0
  let b := if hasFirst (opOf w) && specIsReg (bits n 8 8) then k * 2 ^ 8 else 0
  let c := if hasSecond (opOf w) && specIsReg (bits n 0 8) then k else 0
  BitVec.ofNat 32 (n + a + b + c)

/-- The word that a VP at a position and replay executes. -/
def wordAt (ws : List (BitVec 32)) (pos rep : Nat) : BitVec 32 :=
  let w := ws.getD pos 0
  match frameOf ws 0 pos with
  | none => w
  | some f => stagger w (rep * f.str)

/-- Check 5 of R306 on one frame word: a register field that reaches NREG, or an odd destination of VADDC, at some replay. -/
def frameRegsBad (nreg reach str : Nat) (w : BitVec 32) : Bool :=
  let vd := bits w.toNat 17 6
  (advancesVd w && decide (nreg ≤ vd + reach)) ||
  (srcRegs w).any (fun r => decide (nreg ≤ r + reach)) ||
  (opOf w == 0x7D && bits w.toNat 16 1 == 0 &&
    (decide (nreg ≤ vd + 1 + reach) || vd % 2 == 1 || (decide (reach ≠ 0) && str % 2 == 1)))

/-- The checks of R306 on the frame that a REPF word at a position opens. Check 2 is on opcodes and reserved fields, `undecoded`; a word
with a reserved code in a field traps for itself when it is replayed (R286, check 1). -/
def frameCheck (undecoded : BitVec 32 → Bool) (nreg : Nat) (ws : List (BitVec 32)) (pos : Nat) (w : BitVec 32) :
    Option (BitVec 8) :=
  let f := frameAt w pos
  let body := (ws.drop f.start).take f.len
  if ws.length < f.start + f.len then some 0x12
  else if body.any undecoded then some 0x01
  else if body.any (fun x => !isArith (opOf x) || opOf x == 0x69 || isCross (opOf x)) then some 0x12
  else if body.any (fun x => (srcBytes x).any (fun b => b == 0x44 || b == 0x45)) then some 0x12
  else if body.any (frameRegsBad nreg ((f.cnt - 1) * f.str) f.str) then some 0x01
  else none

/-! ### Charges of block words (R127, R128) -/

/-- The ticks of one block word executed by `n` VPs (R127). -/
def wordTicks (n : Nat) (w : BitVec 32) : Nat :=
  if opOf w = 0xC5 then 0
  else if opOf w = 0xC1 then 8 + ceilDiv n 16
  else max 1 (ceilDiv n 64)

/-- The tick part of W(n), for words from position `i` of a block (R128). -/
def resTicks (ws : List (BitVec 32)) (n : Nat) : List (BitVec 32) → Nat → Nat
  | [], _ => 0
  | w :: t, i =>
    (match frameOf ws 0 i with
     | some f => f.cnt * ceilDiv n 64
     | none => wordTicks n w) + resTicks ws n t (i + 1)

/-- The sector part of W(n): n for each VLD, VST or VAMO word whose policy is not scratchpad (R128). -/
def resSectors (n : Nat) (ws : List (BitVec 32)) : Nat :=
  n * (ws.filter (fun w => decide (opOf w = 0x90 ∨ opOf w = 0x91 ∨ opOf w = 0x95) && bits w.toNat 2 2 != 3)).length

/-- W(n) of a block (R128). -/
def reservation (ws : List (BitVec 32)) (n : Nat) : Nat × Nat := (resTicks ws n ws 0, resSectors n ws)

end Sys2Proof.Machine
end

