-- ==== Sys2Proof/Machine/VRegs.lean ====
section
/-! DEFINITION. The physical pool and the vector registers: focus, allocation, writes, release, spill and refill (R68 to R96). -/

namespace Sys2Proof.Machine

/-- The package with wave `id` focused. -/
def State.focus (s : State) (id : Nat) : State :=
  if s.w.id = id then s
  else
    match s.others.find? (fun w => w.id == id) with
    | none => s
    | some w => { s with w := w, others := s.w :: s.others.filter (fun x => x.id != id) }

/-- A register of a wave; an unlisted one is released. -/
def Wave.reg (w : Wave) (v : Nat) : VReg := spGet ({} : VReg) w.vregs v

/-- A wave with one register changed. -/
def Wave.setReg (w : Wave) (v : Nat) (r : VReg) : Wave := { w with vregs := spSet ({} : VReg) w.vregs v r }

/-- Element `i` of a register (R76, R85): a released register and an element at or above the tag read zero. -/
def VReg.elem (r : VReg) (i : Nat) : U64 :=
  if r.st = .live ∧ i < r.tag then spGet (0 : U64) r.elems i else 0

/-- Whether a destination is an element of a register. -/
def Dst.inReg (d : Dst) (v : Nat) : Bool :=
  match d with
  | .elem u _ => u == v
  | .loc u _ => u == v
  | _ => false

/-- A destination that is no longer one where it is an element of a register. -/
def Dst.drop (d : Dst) (v : Nat) : Dst := if d.inReg v then .none else d

/-- Elements of a register that are still to arrive land nowhere: their storage is given back. -/
def Wave.dropDst (w : Wave) (v : Nat) : Wave :=
  { w with
    vland := w.vland.map (fun l => { l with dst := l.dst.drop v })
    reqs := w.reqs.map (fun q => { q with dst := q.dst.drop v })
    replies := w.replies.map (fun q => { q with dst := q.dst.drop v }) }

/-- A register released (R79): its segments and a spill slot's contents go, and what is still to land in it lands nowhere. -/
def Wave.release (w : Wave) (v : Nat) : Wave := (w.dropDst v).setReg v {}

/-- Registers released one after another. -/
def Wave.releaseAll (w : Wave) : List Nat → Wave
  | [] => w
  | v :: t => (w.release v).releaseAll t

/-- Elements written into a list of elements, each cut to `ew` bits. -/
def putElems (ew : Nat) (l : List (Nat × U64)) : List (Nat × U64) → List (Nat × U64)
  | [] => l
  | (i, x) :: t => putElems ew (spSet (0 : U64) l i (BitVec.ofNat 64 (x.toNat % 2 ^ ew))) t

/-- The errors of a register after a write of some elements at a vector length: they stay until it is written in full (R253). -/
def VReg.errors (r : VReg) (vl : Nat) (xs : List Nat) : List Nat × List Nat :=
  let bad := r.bad.filter (fun i => decide (i < vl))
  let since := (r.since ++ xs.filter (fun i => decide (i < vl))).eraseDups
  if bad.isEmpty || (List.range vl).all since.contains then ([], []) else (bad, since)

/-- A vector write at the current VL (R75, R76): the tag becomes VL, elements at or above it read zero, the listed elements
take their values, and the others keep theirs. At VL = 0 nothing is written. -/
def Wave.writeReg (w : Wave) (age v : Nat) (xs : List (Nat × U64)) : Wave :=
  if w.cfg.vl = 0 then w
  else
    let r := w.reg v
    let kept := if r.st = .released then [] else r.elems.filter (fun e => decide (e.1 < w.cfg.vl))
    w.setReg v { st := .live, tag := w.cfg.vl, age := age + 1,
                 bad := (r.errors w.cfg.vl (xs.map Prod.fst)).1, since := (r.errors w.cfg.vl (xs.map Prod.fst)).2,
                 elems := putElems w.ew kept (xs.filter (fun e => decide (e.1 < w.cfg.vl))) }

/-- The first uncorrectable error among the elements of a list in the registers of a list, with its element and EVAL (R253). -/
def Wave.badElem (w : Wave) (regs elems : List Nat) : Option (Nat × U64) :=
  elems.findSome? (fun i => (regs.find? (fun r => decide ((w.reg r).st = .live) && (w.reg r).bad.contains i)).map (fun r =>
    (i, BitVec.ofNat 64 (i * 2 ^ 16 + r))))

/-- Segments per lane that a write of a register at the current VL adds to the holding (R75). -/
def Wave.grow (w : Wave) (v : Nat) : Nat :=
  segsOf w.lanes w.ew w.cfg.vl - w.regSegs (w.reg v)

/-- Free segments on the fullest lane of the focused wave's group. -/
def freeSegs (s : State) : Nat :=
  let c := s.myCluster
  let used := (List.range s.w.lanes).foldl (fun x j =>
    max x ((s.residents s.w.die s.w.cl).foldl (fun y u =>
      y + if u.base ≤ s.w.base + j ∧ s.w.base + j < u.base + u.lanes then u.hold else 0) 0)) 0
  c.pool - used

/-- Whether the pool has `n` more segments per lane free (R91). -/
def poolHas (s : State) (n : Nat) : Bool := n == 0 || decide (n ≤ freeSegs s)

/-- Whether `n` more segments per lane can be allocated now: the pool has them, and the wave's holding stays within its QUOTA
(R91, R95). -/
def canAlloc (s : State) (n : Nat) : Bool := poolHas s n && (n == 0 || decide (s.w.hold + n ≤ s.w.cfg.quota))

/-- Whether a register of the focused wave is spilled. -/
def Wave.spilled (w : Wave) (v : Nat) : Bool := decide ((w.reg v).st = .spilled)

/-! ### Spill (R91 to R95) -/

/-- The registers of a run's uncommitted instructions: those of the words at which its VPs stand, and of the words that some of
them have passed and others have not. -/
def Wave.runBusy (w : Wave) (r : Run) : List Nat :=
  let ps := w.vps.filterMap (fun e => match e.2 with | .run k p _ _ _ => if k = r.id then some p else none | _ => none)
  let lo := ps.foldl min r.words.length
  let hi := ps.foldl max 0
  (List.range (hi + 1 - lo)).flatMap (fun k =>
    (List.range (replays r.words (lo + k))).flatMap (fun q => wordRegs (wordAt r.words (lo + k) q)))

/-- The vector register of a destination, if it has one. -/
def Dst.regs : Dst → List Nat
  | .elem v _ => [v]
  | .loc v _ => [v]
  | _ => []

/-- Registers that an in-flight matrix instruction names: what it reads and writes as its word says, and the parameter and
output groups of the epilogue program that it started with (R222). -/
def matRegs (w : Wave) : List Nat :=
  w.mat.flatMap (fun e => wordRegs e.word ++
    (match e.cap with
     | [] => []
     | p :: _ =>
       let out := if bits p.toNat 1 1 = 0 then 0 else if bits e.word.toNat 6 4 ≤ 1 then 16 else 32
       (List.range out).map (fun k => bits p.toNat 16 6 + k) ++ (List.range 8).map (fun k => bits p.toNat 10 6 + k)))

/-- Registers that in-flight work of a wave names: operands of uncommitted instructions, of the queue entry that is to take effect,
and targets of loads in flight (R91, step 2). -/
def Wave.busyRegs (w : Wave) : List Nat :=
  (w.runs.flatMap w.runBusy) ++ ((w.vq.take 1 ++ (w.vq.filter (fun e => !e.before)).take 1).flatMap (fun e => wordRegs e.word)) ++ matRegs w ++
  w.vland.flatMap (fun l => l.dst.regs) ++ w.reqs.flatMap (fun r => r.dst.regs) ++ w.replies.flatMap (fun r => r.dst.regs)

/-- The victim register of a wave (R91, step 2): the oldest last write among its live registers and its queue segment (which
is number 64), the lowest number among equals. -/
def victimReg (w : Wave) : Option Nat :=
  let cands := (w.vregs.filter (fun e => e.2.st = .live && !w.busyRegs.contains e.1)).map (fun e => (e.1, e.2.age)) ++
    (if w.qseg = .live then [(64, w.qage)] else [])
  (cands.foldl (fun (b : Option (Nat × Nat)) e =>
    match b with
    | none => some e
    | some m => if e.2 < m.2 then some e else some m) none).map Prod.fst

/-- The focused wave's register written to its slot and spilled; a fault leaves it and raises a trap of SRC 3 (R94). -/
def spillOwn (s : State) (v : Nat) : Except (BitVec 8 × U64) State :=
  if v = 64 then
    match spanWrite s (s.saveArea + 0xF000) (256 * s.w.lanes) (qsegEntries s.w) with
    | .error e => .error e
    | .ok s' => .ok (s'.setW { s'.w with qseg := .spilled, xq := [] })
  else
    let r := s.w.reg v
    match spanWrite s (s.saveArea + 0x10000 * (v + 1)) (r.tag * (s.w.ew / 8)) (regEntries s.w.ew r) with
    | .error e => .error e
    | .ok s' => .ok (s'.setW (s'.w.setReg v { r with st := .spilled, elems := [] }))

/-- A trap raised for the focused wave, to be entered at its next boundary (R236). -/
def raise (s : State) (t : PTrap) : State := s.setW { s.w with traps := s.w.traps ++ [t] }

/-- A spill or refill of the focused wave that faults: PAGE or PERM at its next boundary; the spill engine passes it over until
the trap returns (R94). -/
def raiseSpill (s : State) (e : BitVec 8 × U64) : State :=
  s.setW { s.w with traps := s.w.traps ++ [{ src := 3, cause := e.1, val := e.2, spill := true }], spillBad := true }

/-- The victim wave of the focused wave's cluster (R91, step 1): the youngest resident wave holding more than its floor; the oldest is none,
and a wave with a spill trap pending is passed over (R94). Where every register of the victim is excluded, the engine waits. -/
def victimWave (s : State) : Option Wave :=
  let rs := s.residents s.w.die s.w.cl
  let oldest := rs.foldl (fun x w => min x w.stamp) (rs.foldl (fun x w => max x w.stamp) 0)
  (rs.filter (fun w => decide (w.cfg.floor < w.hold) && decide (oldest < w.stamp) && !w.spillBad)).foldl
    (fun (b : Option Wave) w => match b with | none => some w | some m => if m.stamp < w.stamp then some w else some m) none

/-- The span of a register of the focused wave, or of its queue segment, in the save area. -/
def slotSpan (s : State) (v : Nat) : Nat × Nat :=
  if v = 64 then (s.saveArea + 0xF000, 256 * s.w.lanes) else (s.saveArea + 0x10000 * (v + 1), (s.w.reg v).tag * (s.w.ew / 8))

/-- Whether a failed link holds the next spill of the engine (R262). -/
def spillHeld (s : State) : Bool :=
  !s.pkg.failedLinks.isEmpty &&
    (match victimWave s with
     | none => false
     | some w => (match victimReg w with | none => false | some v => spanHeld (s.focus w.id) (slotSpan (s.focus w.id) v)))

/-- The spill engine (R91): victims are spilled until the focused wave's request of `need` segments fits. A spill that faults
raises PAGE or PERM on its owner, which is then passed over (R94). -/
def spillUntil (s : State) (need : Nat) : Nat → State
  | 0 => s
  | fuel + 1 =>
    if poolHas s need || spillHeld s then s
    else
      match victimWave s with
      | none => s
      | some vic =>
        match victimReg vic with
        | none => s
        | some v =>
          let me := s.w.id
          let sv := s.focus vic.id
          let s' := match spillOwn sv v with
            | .ok x => x.setMyCluster { x.myCluster with spills := x.myCluster.spills + 1 }
            | .error e => raiseSpill sv e
          spillUntil (s'.focus me) need fuel

/-- The refill of a spilled register or of the queue segment of the focused wave (R93, R94, R92). -/
def refillOwn (s : State) (v : Nat) : State :=
  let done (x : State) : State :=
    let y := x.setMyCluster { x.myCluster with refills := x.myCluster.refills + 1 }
    y.setW { y.w with want := y.w.want.filter (· != v) }
  if v = 64 then
    match spanPas s Acc.load (s.saveArea + 0xF000) (256 * s.w.lanes) with
    | .error e => raiseSpill s e
    | .ok pas =>
      match qsegRead s pas s.w.lanes with
      | none => raise s { src := 3, cause := 0x01, val := s.w.pc }
      | some l => done (s.setW { s.w with qseg := .live, xq := l })
  else
    let r := s.w.reg v
    match spanPas s Acc.load (s.saveArea + 0x10000 * (v + 1)) (r.tag * (s.w.ew / 8)) with
    | .error e => raiseSpill s e
    | .ok pas => done (s.setW (s.w.setReg v { r with st := .live, elems := regRestore s pas s.w.ew r.tag }))

/-- Segments per lane that the refill of a spilled register takes. -/
def refillSegs (w : Wave) (v : Nat) : Nat := if v = 64 then 1 else segsOf w.lanes w.ew (w.reg v).tag

/-- The focused wave spills its own registers until `need` more segments fit its QUOTA (R95); a spill that faults ends it until the
trap returns (R94). -/
def selfSpill (s : State) (need : Nat) : Nat → State
  | 0 => s
  | fuel + 1 =>
    if s.w.hold + need ≤ s.w.cfg.quota ∨ s.w.spillBad then s
    else
      match victimReg s.w with
      | none => s
      | some v =>
        if !s.pkg.failedLinks.isEmpty && spanHeld s (slotSpan s v) then s
        else
        match spillOwn s v with
        | .ok s' => selfSpill (s'.setMyCluster { s'.myCluster with spills := s'.myCluster.spills + 1 }) need fuel
        | .error e => raiseSpill s e

/-- Room made in the focused wave's QUOTA for `n` more segments per lane, at once (R95). -/
def makeRoom (s : State) (n : Nat) : State := if n = 0 then s else selfSpill s n 65

end Sys2Proof.Machine
end

