-- ==== Sys2Proof/Machine/Vps.lean ====
section
/-! DEFINITION. Virtual processors, blocks in execution, the frontier, serial mode, settlement and the resolution of blocks at
pre-emption (R28 to R49, R79 to R84, R127 to R131, R143, R246, R250). -/

namespace Sys2Proof.Machine

/-- A change of the focused wave. -/
def State.mapW (s : State) (f : Wave → Wave) : State := s.setW (f s.w)

/-! ### Virtual processors (R28) -/

/-- The state of a VP; none is idle. -/
def Wave.vp (w : Wave) (v : Nat) : Option VpSt := lkGet w.vps v

/-- A VP given a state. -/
def Wave.setVp (w : Wave) (v : Nat) (x : VpSt) : Wave := { w with vps := lkSet w.vps v x }

/-- A VP made idle; its latches go with its block (R87). -/
def Wave.idleVp (w : Wave) (v : Nat) : Wave := { w with vps := lkDel w.vps v, latches := lkDel w.latches v }

/-- The lane of a VP (R27). -/
def Wave.laneOf (w : Wave) (v : Nat) : Nat := v % w.lanes

/-- The slot of a VP (R27). -/
def Wave.slotOf (w : Wave) (v : Nat) : Nat := v / w.lanes

/-- Whether a VP is active for a masked form: bit i of m0 (R36). -/
def Wave.active0 (w : Wave) (m : BitVec 1) (v : Nat) : Bool := m == 0 || (w.masks[0]).getLsbD v

/-- A bit of a mask register set or cleared. -/
def Wave.setMaskBit (w : Wave) (k v : Nat) (b : Bool) : Wave :=
  if h : k < 8 then
    let old := w.masks[k]
    let one : BitVec 8192 := BitVec.ofNat 8192 (2 ^ v)
    { w with masks := w.masks.set k (if b then old ||| one else old &&& ~~~one) }
  else w

/-- A mask register. -/
def Wave.mask (w : Wave) (k : BitVec 3) : BitVec 8192 := w.masks[k.toNat]

/-- A mask register written whole. -/
def Wave.setMask (w : Wave) (k : BitVec 3) (x : BitVec 8192) : Wave := { w with masks := w.masks.set k.toNat x }

/-- A run of the wave. -/
def Wave.run? (w : Wave) (r : Nat) : Option Run := w.runs.find? (fun x => x.id == r)

/-- A run replaced. -/
def Wave.setRun (w : Wave) (r : Run) : Wave := { w with runs := w.runs.map (fun x => if x.id = r.id then r else x) }

/-- The run of a VP state. -/
def VpSt.runId : VpSt → Option Nat
  | .run r _ _ _ _ => some r
  | _ => none

/-- The VPs that a run still holds, in ascending order. -/
def Wave.runVps (w : Wave) (r : Nat) : List (Nat × VpSt) := w.vps.filter (fun e => e.2.runId == some r)

/-- How many words of its block a VP has passed. -/
def VpSt.lin (ws : List (BitVec 32)) : VpSt → Nat
  | .run _ pos rep _ _ => linOf ws pos rep
  | _ => 0

/-- Whether a VP is blocked on a cross-element queue (R28). -/
def VpSt.isBlocked : VpSt → Bool
  | .run _ _ _ _ b => b
  | _ => false

/-- Whether a wave waits without work in its lanes with respect to every earlier entry: no VP in the lockstep, thread or
blocked state (R28); held VPs count as quiescent (R135, R239), and a target still pending does not. -/
def Wave.quiescent (w : Wave) : Bool :=
  w.trp.inh || (w.offers.isNone && w.vps.all (fun e =>
    match e.2 with
    | .run r _ _ _ _ => ((w.run? r).map (fun x => x.stopped)).getD true
    | .thread _ => w.ctl.incont
    | .parked _ => true
    | .caught _ => true
    | .pend _ _ => false))

/-! ### Budgets (R125, R126) -/

/-- A charge of `t` ticks fits. -/
def Wave.fitsT (w : Wave) (t : Nat) : Bool := t == 0 || decide ((t : Int) ≤ w.bud.ibgt.toInt)

/-- A charge of `m` sectors fits. -/
def Wave.fitsS (w : Wave) (m : Nat) : Bool := m == 0 || decide ((m : Int) ≤ w.bud.mbgt.toInt)

/-- A charge deducted, without a check; in handler mode no charge is made (R239). -/
def Wave.deduct (w : Wave) (t m : Nat) : Wave :=
  if w.trp.inh then w
  else { w with bud := { w.bud with ibgt := w.bud.ibgt - BitVec.ofNat 64 t, mbgt := w.bud.mbgt - BitVec.ofNat 64 m } }

/-- A reservation returned (R129). -/
def Wave.refund (w : Wave) (t m : Nat) : Wave :=
  { w with bud := { w.bud with ibgt := w.bud.ibgt + BitVec.ofNat 64 t, mbgt := w.bud.mbgt + BitVec.ofNat 64 m } }

/-! ### The frontier and serial mode (R41 to R47) -/

/-- The next address of a VP in the thread state: the address it holds, or that of the thread-mode block it runs. -/
def Wave.nextAddr (w : Wave) : VpSt → Option U64
  | .thread a => some a
  | .run r _ _ _ _ => (w.run? r).bind (fun x => if x.kind.isThread then some x.addr else none)
  | _ => none

/-- The live addresses (R41). -/
def Wave.liveAddrs (w : Wave) : List U64 := (w.vps.filterMap (fun e => w.nextAddr e.2)).eraseDups

/-- The entry of the frontier at an address. -/
def Wave.entryAt (w : Wave) (a : U64) : Option Entry := w.frontier.find? (fun e => e.addr == a)

/-- The VPs of an entry: those whose next address it is (R41). -/
def Wave.entryVps (w : Wave) (a : U64) : List Nat := (w.vps.filter (fun e => w.nextAddr e.2 == some a)).map Prod.fst

/-- The serial list: VPs of the thread state whose next address has no entry (R46). -/
def Wave.serialList (w : Wave) : List Nat :=
  (w.vps.filter (fun e => match w.nextAddr e.2 with | some a => (w.entryAt a).isNone | none => false)).map Prod.fst

/-- The VP of the serial list that runs: the one that runs already, otherwise the one with the lowest index (R46). -/
def Wave.serialPick (w : Wave) : Option Nat :=
  match w.serialVp with
  | some v => if w.serialList.contains v then some v else w.serialList.head?
  | none => w.serialList.head?

/-- Entries whose mask is empty removed (R42). -/
def Wave.prune (w : Wave) : Wave := { w with frontier := w.frontier.filter (fun e => !(w.entryVps e.addr).isEmpty) }

/-- PRIO of the header at an address, 0 where the header cannot be read. -/
def prioAt (s : State) (a : U64) : Nat :=
  match checkHeader s a with
  | .ok h => hdrPrio h
  | .error _ => 0

/-- A frontier entry for an address, unless one exists. -/
def addEntry (s : State) (a : U64) : State :=
  if (s.w.entryAt a).isSome then s else s.mapW (fun w => { w with frontier := w.frontier ++ [⟨prioAt s a, a⟩] })

/-- A VP that enters the thread state with an address (R42, R46). -/
def enterThread (s : State) (v : Nat) (a : U64) : State :=
  let s1 := s.mapW (fun w => (w.setVp v (.thread a)).prune)
  if (s1.w.entryAt a).isSome then s1
  else if s1.w.frontier.length < 16 ∧ s1.w.ctl.serial = false then addEntry s1 a
  else s1.mapW (fun w => { w with ctl := { w.ctl with serial := true } })

/-- The VPs of the serial list, in ascending order, given entries. -/
def entriesFor (s : State) : List Nat → State
  | [] => s
  | v :: t =>
    match (s.w.vp v).bind s.w.nextAddr with
    | some a => entriesFor (addEntry s a) t
    | none => entriesFor s t

/-- After each change of state: empty entries go, and serial mode ends when at most 8 addresses are live (R42, R47). -/
def settleFrontier (s : State) : State :=
  let s1 := s.mapW Wave.prune
  if s1.w.ctl.serial ∧ s1.w.liveAddrs.length ≤ 8 then
    entriesFor (s1.mapW (fun w => { w with ctl := { w.ctl with serial := false }, serialVp := none })) s1.w.serialList
  else s1

/-- The distinct addresses that a wave holds (R250): next addresses, catch addresses, blocks, and targets latched or
pending. -/
def Wave.addresses (w : Wave) : List U64 :=
  (w.vps.flatMap (fun e =>
    match e.2 with
    | .run r _ _ t _ => ((w.run? r).map (fun x => x.addr)).toList ++ (t.map Prod.fst).toList
    | .thread a => [a]
    | .parked a => [a]
    | .caught a => [a]
    | .pend a _ => [a])).eraseDups

/-! ### Blocks (R36, R39, R48, R143) -/

/-- The number of elements that a lane packs in one issue step of a run (R16, R43). -/
def Wave.pack (w : Wave) (k : RunKind) : Nat := if k.isThread then 1 else 128 / w.ew

/-- The issue steps of a block for a list of VPs, over all lanes (R143). -/
def Wave.stepsOf (w : Wave) (k : RunKind) (ws : List (BitVec 32)) (vps : List Nat) : Nat :=
  linTotal ws * (List.range w.lanes).foldl (fun x j => x + ceilDiv (vps.filter (fun v => w.laneOf v == j)).length (w.pack k)) 0

/-- A block started for a list of VPs with its header and words as read at this moment (R323), and a reservation. -/
def Wave.startRun (w : Wave) (k : RunKind) (a : U64) (h : BitVec 32) (ws : List (BitVec 32)) (vps : List Nat) (rsv : Nat × Nat) :
    Wave :=
  let r : Run := { id := w.freshRun, kind := k, addr := a, words := ws, idem := hdrIdem h, rsvT := rsv.1, rsvS := rsv.2,
                   total := w.stepsOf k ws vps, vps := vps }
  { w with
    runs := w.runs ++ [r]
    vps := vps.foldl (fun l v => lkSet l v (.run r.id 0 0 none false)) w.vps
    latches := vps.foldl lkDel w.latches }

/-- Whether every VP that the run still holds has passed the word of a given order (R79). -/
def Wave.passed (w : Wave) (r : Run) (l : Nat) : Bool := (w.runVps r.id).all (fun e => decide (l < e.2.lin r.words))

/-- The declared releases that are due, performed, or held in an idempotent block (R79, R83). -/
def Wave.performReleases (w : Wave) (id : Nat) : Wave :=
  match w.run? id with
  | none => w
  | some r =>
    let due := (r.decl.filter (fun d => w.passed r d.1)).map Prod.snd
    let r' : Run := { r with decl := r.decl.filter (fun d => !w.passed r d.1), held := if r.idem then r.held ++ due else r.held }
    (if r.idem then w else w.releaseAll due).setRun r'

/-- A run that no VP is in any more: settled under R129, its held releases performed in order (R83). Catch blocks and re-run
blocks were charged as they committed (R130, R143). -/
def Wave.completeRun (w : Wave) (id : Nat) : Wave :=
  match w.run? id with
  | none => w
  | some r =>
    if !(w.runVps id).isEmpty then w
    else
      let w1 := (w.performReleases id)
      let held := ((w1.run? id).map (fun x => x.held)).getD []
      let w2 := w1.releaseAll held
      let w3 := { w2 with runs := w2.runs.filter (fun x => x.id != id) }
      match r.kind with
      | .catchGroup => w3
      | .resent => w3
      | _ => (w3.refund r.rsvT r.rsvS).deduct r.ticks r.sect

/-- A VP that faults in its own access ends its block as by VPSTOP, with its bit of m7 set (R246). -/
def Wave.vpFault (w : Wave) (v : Nat) : Wave :=
  let w1 := w.setMaskBit 7 v true
  match w1.vp v with
  | some (.run r _ _ _ _) => w1.setVp v (.run r (((w1.run? r).map (fun x => x.words.length)).getD 0) 0 none false)
  | _ => w1.idleVp v

/-- A VP that leaves its block for a THFETCH target (R32, R33, R323, R246): thread, parked, idle with its bit of m7 set, or
held with its target pending and a trap raised. -/
def followTarget (s : State) (v : Nat) (a : U64) (iw : Nat) : State :=
  match checkHeader s a with
  | .ok h => if hdrCatch h then s.mapW (fun w => w.setVp v (.parked a)) else enterThread s v a
  | .error c =>
    if c = 0x05 ∨ c = 0x07 then s.mapW (fun w => (w.setMaskBit 7 v true).idleVp v)
    else raise (s.mapW (fun w => w.setVp v (.pend a iw))) { src := 1, cause := c, iw := iw, vp := v, val := a, vps := [v] }

/-- A VP that stands at the end of its block completes it (R32). -/
def endBlock (s : State) (v : Nat) : State :=
  match s.w.vp v with
  | some (.run r _ _ t _) =>
    let s0 := s.mapW (fun w => { w with latches := lkDel w.latches v, vps := lkDel w.vps v })
    let s1 := match t with
      | none => s0
      | some (a, iw) => followTarget s0 v a iw
    settleFrontier (s1.mapW (fun w => (w.performReleases r).completeRun r))
  | _ => s

/-- Whether the result of a VP's own atomic is still on its way (R396): the VP waits for it. -/
def Wave.localPending (w : Wave) (i : Nat) : Bool :=
  let mine (d : Dst) : Bool := match d with | .loc _ k => k == i | _ => false
  w.reqs.any (fun q => mine q.dst) || w.replies.any (fun q => mine q.dst)

/-- Whether a VP stands at the end of its block, with no offer of VSPAWN open there and no atomic of its own on its way. -/
def Wave.atEnd (w : Wave) (v : Nat) : Bool :=
  match w.vp v with
  | some (.run r pos _ _ _) => !w.localPending v && ((w.run? r).map (fun x => decide (x.words.length ≤ pos) &&
      !((w.offers.map (fun o => o.run == r)).getD false))).getD false
  | _ => false

/-- VPs lane by lane in ascending order, and on a lane by ascending slots (R42). -/
def Wave.laneOrder (w : Wave) (vs : List Nat) : List Nat := (List.range w.lanes).flatMap (fun j => vs.filter (fun v => w.laneOf v == j))

/-- The VPs that stand at the end of their blocks, in the order in which they leave them (R42). -/
def Wave.ending (w : Wave) : List Nat := w.laneOrder ((w.vps.map Prod.fst).filter w.atEnd)

/-- Every VP that stands at the end of its block completes it (R32, R42). -/
def endAll (s : State) : State := s.w.ending.foldl (fun x v => if x.w.atEnd v then endBlock x v else x) s

/-! ### Lanes -/

/-- The order in which a lane takes VPs of its runs: the block's word order, then ascending slots (R39). -/
def Wave.vpKey (w : Wave) (e : Nat × VpSt) : Nat :=
  match e.2 with
  | .run r _ _ _ _ => ((w.run? r).map (fun x => e.2.lin x.words)).getD 0 * 8192 + e.1
  | _ => 0

/-- Whether a lane may execute the next word of a VP now: its block runs, is neither held nor suspended, and the VP is
neither at the block's end, blocked, stopped by the debugger, nor waiting for an atomic of its own. -/
def Wave.canStep (w : Wave) (e : Nat × VpSt) : Bool :=
  match e.2 with
  | .run r pos _ _ blk =>
    !blk && !w.dbg.vps.contains e.1 && !w.localPending e.1 &&
      ((w.run? r).map (fun x => decide (pos < x.words.length) && !x.stopped && !x.suspended &&
          !((w.offers.map (fun o => o.run == r)).getD false))).getD false
  | _ => false

/-- The VP that lane `j` serves next. -/
def Wave.nextVp (w : Wave) (j : Nat) : Option (Nat × VpSt) :=
  ((w.vps.filter (fun e => w.laneOf e.1 == j && w.canStep e)).foldl
    (fun (b : Option (Nat × VpSt)) e =>
      match b with
      | none => some e
      | some m => if w.vpKey e < w.vpKey m then some e else some m) none)

/-- Whether lane `j` is inside a block that is not suspended (R44). -/
def Wave.laneBusy (w : Wave) (j : Nat) : Bool :=
  w.vps.any (fun e => w.laneOf e.1 == j &&
    (match e.2 with
     | .run r _ _ _ _ => ((w.run? r).map (fun x => !x.stopped && !x.suspended)).getD false
     | _ => false))

/-! ### Pre-emption of blocks (R143) -/

/-- The issue steps that remain on a lane for a run. -/
def Wave.stepsLeft (w : Wave) (r : Run) (j : Nat) : Nat :=
  let mine := (w.runVps r.id).filter (fun e => w.laneOf e.1 == j)
  (List.range (linTotal r.words)).foldl (fun x l =>
    x + ceilDiv (mine.filter (fun e => decide (e.2.lin r.words ≤ l))).length (w.pack r.kind)) 0

/-- Whether a step that remains is a VLD, VST, VAMO, VXSEND or `xin` read. -/
def Wave.noDrain (w : Wave) (r : Run) : Bool :=
  (w.runVps r.id).any (fun e =>
    match e.2 with
    | .run _ pos _ _ _ => (r.words.drop pos).any (fun x =>
        decide (opOf x = 0x90 ∨ opOf x = 0x91 ∨ opOf x = 0x95 ∨ opOf x = 0x69) || namesXin x)
    | _ => false)

/-- The VPs of a run that return to its entry when it is flushed: those still in it, and those that have completed it and wait (R143). -/
def Wave.entryVpsOf (w : Wave) (r : Run) : List Nat :=
  w.laneOrder ((w.runVps r.id).map Prod.fst ++ r.vps.filter (fun v =>
    match w.vp v with
    | none => true
    | some (.thread _) => true
    | some (.parked _) => true
    | _ => false))

/-- Whether the debugger has stopped any part of a wave (R257). -/
def Wave.anyStopped (w : Wave) : Bool := w.dbg.stopped || !w.dbg.vps.isEmpty

/-- Whether a wave issues nothing because of a wave-stop (R257). The continuation that a pre-emption request enters runs all the same, since
the request proceeds: DESIGN CHOICE (log entry 39), R257 does not say how. -/
def Wave.frozen (w : Wave) : Bool := w.dbg.stopped && !(w.ctl.incont && w.bud.xcause == 0x22)

/-- Whether a run has a VP that the debugger has stopped: for a save and for a pre-emption it counts as held (R257). -/
def Wave.debugHolds (w : Wave) (r : Run) : Bool := w.dbg.stopped || (w.runVps r.id).any (fun e => w.dbg.vps.contains e.1)

/-- Flush-and-restart of a run (R143, R83): lockstep VPs wait for a re-sent fetch, thread VPs hold the block's address; the
charge of the committed steps stays. A trap that a discarded step raised goes with it (R247). -/
def flushRun (s : State) (r : Run) : State :=
  let vs := s.w.entryVpsOf r
  let paid : Wave → Wave := fun w =>
    match r.kind with
    | .catchGroup => w
    | .resent => w
    | _ => (w.refund r.rsvT r.rsvS).deduct r.ticks r.sect
  let s1 := s.mapW (fun w => paid { w with
    runs := w.runs.filter (fun x => x.id != r.id), latches := vs.foldl lkDel w.latches
    traps := w.traps.filter (fun t => !(t.src == 1 && t.vps.any vs.contains)) })
  match r.kind with
  | .thread _ => vs.foldl (fun x v => enterThread x v r.addr) s1
  | _ => s1.mapW (fun w => { w with vps := vs.foldl (fun l v => lkSet l v (.caught r.addr)) w.vps,
                                    fetches := addFetch w.fetches { addr := r.addr, resent := true } })

/-- A run stopped at its lanes' next issue-step boundary (R143, save): latches are invalid when it resumes (R87). -/
def stopRun (s : State) (r : Run) : State :=
  s.mapW (fun w => { w.setRun { r with stopped := true, suspended := false } with
                     latches := ((w.runVps r.id).map Prod.fst).foldl lkDel w.latches })

/-- One in-flight block resolved: drain (it goes on), flush-and-restart, or save (R143); one that the debugger has stopped is held (R257). -/
def resolveRun (s : State) (r : Run) : State :=
  if r.stopped then s
  else if s.w.debugHolds r then stopRun s r
  else if (List.range s.w.lanes).all (fun j => decide (s.w.stepsLeft r j ≤ 16)) && !s.w.noDrain r then s
  else if r.idem && decide (2 * r.steps < r.total) then flushRun s r
  else stopRun s r

/-- Every in-flight block resolved (R142, step 4). -/
def resolveRuns (s : State) : State := settleFrontier (s.w.runs.foldl resolveRun s)

/-! ### What a continuation holds back (R135, R142) -/

/-- Whether a VP is held: in the thread state, or stopped inside its block. -/
def Wave.isHeld (w : Wave) (x : VpSt) : Bool :=
  match x with
  | .run r _ _ _ _ => ((w.run? r).map (fun y => y.stopped)).getD false
  | .thread _ => true
  | _ => false

/-- Whether the entries queued before the forced entry stay queued until the wave is saved: a pre-emption request caused it, or VPs
that come before them in the order of R37 are held. -/
def Wave.heldBack (w : Wave) : Bool := w.ctl.incont && (w.bud.xcause == 0x22 || w.vps.any (fun e => w.isHeld e.2))

/-- The entries of the queue that may take effect, oldest first: in a continuation its own ones stand in front of those that are held
back. -/
def Wave.vqNow (w : Wave) : List QEntry := if w.heldBack then w.vq.filter (fun e => !e.before) else w.vq

/-- The fetches ahead of the queue that may take effect. -/
def Wave.fetchesNow (w : Wave) : List Fetch := if w.heldBack then w.fetches.filter (fun f => !f.before) else w.fetches

/-- The queue without the oldest entry that may take effect. -/
def Wave.dropEntry (w : Wave) : Wave :=
  { w with vq := if w.heldBack then w.vq.filter (fun e => e.before) ++ (w.vq.filter (fun e => !e.before)).drop 1 else w.vq.drop 1 }

/-- The oldest entry that may take effect replaced. -/
def Wave.setHead (w : Wave) (e : QEntry) : Wave :=
  { w with vq := if w.heldBack then w.vq.filter (fun q => q.before) ++ e :: (w.vq.filter (fun q => !q.before)).drop 1 else e :: w.vq.drop 1 }

/-- The fetches without the oldest one that may take effect. -/
def Wave.dropFetch (w : Wave) : Wave :=
  { w with fetches := if w.heldBack then w.fetches.filter (fun f => f.before) ++ (w.fetches.filter (fun f => !f.before)).drop 1 else w.fetches.drop 1 }

/-! ### Lanes of a cluster that waves share (R44, R208) -/

/-- Whether a wave is inside a block on a lane of its cluster: one that its lane has begun and not left, neither held nor suspended. -/
def Wave.insideBlock (w : Wave) (lane : Nat) : Bool :=
  decide (w.base ≤ lane) && !w.trp.inh && !w.frozen && w.runs.any (fun r =>
    let mine := (w.runVps r.id).filter (fun e => w.base + w.laneOf e.1 == lane)
    !r.stopped && !r.suspended && !mine.isEmpty && (r.kind.isThread || mine.any (fun e => decide (0 < e.2.lin r.words))))

/-- Whether another wave holds lane `j` of the focused wave: a lane switches to another wave only at a block boundary (R44). -/
def laneTaken (s : State) (j : Nat) : Bool :=
  s.others.any (fun u => decide (u.place = s.w.place) && u.insideBlock (s.w.base + j))

/-- VSETVL and VSETCFG end every held VP (R135): its block settles at the steps committed and its held releases are
discarded. Parked VPs become idle (R37). -/
def endHeldAndParked (s : State) : State :=
  let w := s.w
  let w1 := w.runs.foldl (fun x r =>
    if r.stopped then
      let y := { x with runs := x.runs.filter (fun q => q.id != r.id) }
      match r.kind with
      | .catchGroup => y
      | .resent => y
      | _ => (y.refund r.rsvT r.rsvS).deduct r.ticks r.sect
    else x) w
  s.setW { w1 with vps := [], frontier := [], serialVp := none, latches := [], ctl := { w1.ctl with serial := false } }

end Sys2Proof.Machine
end

