-- ==== Sys2Proof/Machine/Access.lean ====
section
/-! DEFINITION. Data accesses: L1, what a load returns, bank operations, and the performance of stores and atomics at their
homes (R150 to R159, R167 to R177, R254, R326, R330). -/

namespace Sys2Proof.Machine

/-! ### Locations -/

/-- The space of a target and its first byte: package memory, the team's scratchpad, a network window. -/
def Target.loc : Target → Nat × Nat
  | .pkg pa => (0, pa)
  | .sp off => (1, off)
  | .win w off => (2 + w, off)

/-- Whether two accesses share a byte. -/
def Target.overlaps (a : Target) (n : Nat) (b : Target) (m : Nat) : Bool :=
  a.loc.1 == b.loc.1 && decide (a.loc.2 < b.loc.2 + m) && decide (b.loc.2 < a.loc.2 + n)

/-- Whether a target lies outside the scratchpad, so that its accesses are sectors (R131). -/
def Target.isSector : Target → Bool
  | .sp _ => false
  | _ => true

/-- Whether a target is a poisoned sector of package memory (R254) or a doubleword of the scratchpad that holds an error (R253). -/
def State.poisonedAt (s : State) : Target → Bool
  | .pkg pa => s.poisoned pa
  | .sp off => s.myTeam.bad.contains (off / 8)
  | .win _ _ => false

/-- The address that an ECC trap reports: with cache policy 3 the scratchpad offset in aperture form (R146, R253). -/
def eccAddr (pol3 : Bool) (va : U64) : U64 := if pol3 then 0x0FFFFF0000000000 + va else va

/-! ### L1 (R151, R152, R177) -/

/-- The 32 bytes of a sector of package memory. -/
def sectorValue (s : State) (k : Nat) : BitVec 256 := BitVec.ofNat 256 (Memory.readN s.mem (32 * k) 32)

/-- One byte of package memory as the focused wave's cluster reads it: the L1 copy of its sector while there is one. -/
def l1Byte (s : State) (pa : Nat) : Nat :=
  match lkGet s.myCluster.l1 (pa / 32) with
  | some v => bits v.toNat (8 * (pa % 32)) 8
  | none => (Memory.read s.mem pa).toNat

/-- A load of policy 0 that misses allocates its sector (R152); with no unit of L1 it does not (R148). -/
def l1Fill (s : State) (pol : Nat) (g : Target) : State :=
  match g with
  | .pkg pa =>
    let c := s.myCluster
    if pol = 0 ∧ c.ul1 ≠ 0 ∧ (lkGet c.l1 (pa / 32)).isNone then
      s.setMyCluster { c with l1 := lkSet c.l1 (pa / 32) (sectorValue s (pa / 32)) }
    else s
  | _ => s

/-- A copy of sector `k` with the bytes that a write of `n` bytes from an address changed; it keeps its other bytes, stale or not, since
L1 is not coherent with other clusters (R151). -/
def l1Patch (s : State) (pa n k : Nat) (v : BitVec 256) : BitVec 256 :=
  BitVec.ofNat 256 ((List.range 32).foldr (fun j x =>
    (if pa ≤ 32 * k + j ∧ 32 * k + j < pa + n then (Memory.read s.mem (32 * k + j)).toNat else bits v.toNat (8 * j) 8) + 256 * x) 0)

/-- The L1 copies of one cluster brought to the stored value in the `n` bytes from an address, where there are any (R151). -/
def l1Update (s : State) (die cl pa n : Nat) : State :=
  let c := s.cluster die cl
  let hit (k : Nat) : Bool := decide (32 * k < pa + n) && decide (pa < 32 * k + 32)
  if c.l1.any (fun e => hit e.1) then
    s.setCluster die cl { c with l1 := c.l1.map (fun e => if hit e.1 then (e.1, l1Patch s pa n e.1 e.2) else e) }
  else s

/-- Every sector of the focused wave's cluster dropped (R177). -/
def dropL1 (s : State) : State := s.setMyCluster { s.myCluster with l1 := [] }

/-! ### Loads -/

/-- One byte of a location over the stores of a list that the same wave made earlier (R170). -/
def overlayByte (l : List Req) (space a b : Nat) : Nat :=
  l.foldl (fun x r =>
    match r.op with
    | .store v =>
      if r.tgt.loc.1 = space ∧ r.tgt.loc.2 ≤ a ∧ a < r.tgt.loc.2 + r.size then bits v.toNat (8 * (a - r.tgt.loc.2)) 8 else x
    | .bank _ _ _ => x) b

/-- The focused wave's own stores on a path that are older than a place in its order of accesses. -/
def ownStores (s : State) (p : Path) (before : Nat) : List Req :=
  s.w.reqs.filter (fun r => decide (r.path = p) && decide (r.sseq < before))

/-- One byte of a target before the wave's own stores. -/
def baseByte (s : State) (g : Target) (k : Nat) : Nat :=
  match g with
  | .pkg pa => l1Byte s (pa + k)
  | .sp off => bits (spRead s s.w.team (off + k) 1) 0 8
  | .win w off => (Config.peerByte s.free (w * 2 ^ 46 + off + k)).toNat

/-- What a load of `n` bytes by the focused wave returns: the cluster's view, with the youngest own store of the same path
(R170, R171). -/
def loadValue (s : State) (p : Path) (before : Nat) (g : Target) (n : Nat) : Nat :=
  (List.range n).foldr (fun k x => overlayByte (ownStores s p before) g.loc.1 (g.loc.2 + k) (baseByte s g k) + 256 * x) 0

/-- Whether a store of a wave still waits for the element of a load that it sends on (R173). -/
def Wave.waitsFor (w : Wave) (r : Req) : Bool :=
  match r.src with
  | none => false
  | some (q, i) => w.vland.any (fun l => l.sseq == q && l.elem == i)

/-- Whether an older atomic of the same path to the same bytes is still on its way, or a store whose data has not landed: a load of them
waits for it (R169, R170). -/
def mustWait (s : State) (p : Path) (before : Nat) (g : Target) (n : Nat) : Bool :=
  s.w.reqs.any (fun r => decide (r.path = p) && decide (r.sseq < before) && r.tgt.overlaps r.size g n &&
    (s.w.waitsFor r || (match r.op with | .store _ => false | .bank _ _ _ => true)))

/-- A value of `size` bytes as a 64-bit register holds it: sign-extended or zero-extended (R361). -/
def extend (size : Nat) (sgn : Bool) (v : Nat) : U64 :=
  if sgn && bits v (8 * size - 1) 1 == 1 then BitVec.ofNat 64 (v % 2 ^ (8 * size) + (2 ^ 64 - 2 ^ (8 * size)))
  else BitVec.ofNat 64 (v % 2 ^ (8 * size))

/-! ### Load buffers (R154) -/

/-- Whether an element of a load buffer stays whatever accesses come before it: a fault (R154), or a value that the debugger forced (R259). -/
def Early.stays : Early → Bool
  | .value _ _ => false
  | _ => true

/-- The target and the value of an element of a load buffer that is no fault. -/
def Early.read? : Early → Option (Target × U64)
  | .value g x => some (g, x)
  | .forced g x => some (g, x)
  | .fault _ => none

/-- The load buffers of the focused wave's queue with some elements dropped: the load reads them again when it takes effect. -/
def dropEarly (s : State) (keep : QEntry → Early → Bool) : State :=
  if s.w.vq.any (fun e => e.early.isSome) then
    s.mapW (fun w => { w with vq := w.vq.map (fun e => { e with early := e.early.map (fun l => l.filter (fun x => x.2.stays || keep e x.2)) }) })
  else s

/-- Whether a queued load uses the VEC path: VLD unit-stride or strided (R168). -/
def QEntry.onVec (e : QEntry) : Bool := opOf e.word == 0x90 && decide (bits e.word.toNat 5 6 < 32)

/-- Every buffered element dropped: an acquire is performed before any later access (R175). -/
def dropAllEarly (s : State) : State := dropEarly s (fun _ _ => false)

/-- A load of the VEC path has been performed: one sent early on that path may not hold an older value (R171). -/
def dropVecEarly (s : State) : State := dropEarly s (fun e _ => !e.onVec)

/-- Buffered elements that share a byte with an access dropped: the wave's own store or atomic (R154, R170), or a load of the same path
(R169). -/
def dropSharing (s : State) (g : Target) (n : Nat) : State :=
  dropEarly s (fun _ x => match x with | .value t _ => !t.overlaps (s.w.ew / 8) g n | _ => true)

/-! ### The gather engine (R155) -/

/-- The sectors that a cluster's gather engine has in flight: of gathers, scatters, strided and VP-local accesses. -/
def engineCount (s : State) (die cl : Nat) : Nat :=
  (s.waves.filter (fun w => decide (w.die = die) && decide (w.cl = cl) && !w.isSaved)).foldl (fun x w =>
    x + (w.reqs.filter (fun r => r.gath)).length + (w.vland.filter (fun l => l.gath && l.linked.isNone)).length) 0

/-- Whether the gather engine of the focused wave's cluster is full. -/
def engineFull (s : State) : Bool := decide (1024 ≤ engineCount s s.w.die s.w.cl)

/-! ### Results on their way (R396, R406) -/

/-- Where the wave's loads and atomics on their way land. -/
def Wave.landings (w : Wave) : List Dst := w.vland.map (fun l => l.dst) ++ w.reqs.map (fun r => r.dst) ++ w.replies.map (fun r => r.dst)

/-- Whether a destination is element `i` of a register. -/
def Dst.isAt (d : Dst) (v i : Nat) : Bool :=
  match d with
  | .elem u j => u == v && j == i
  | .loc u j => u == v && j == i
  | _ => false

/-- Whether an element of some registers is on its way. -/
def Wave.landingIn (w : Wave) (regs : List Nat) : Bool := w.landings.any (fun d => regs.any d.inReg)

/-- Whether one of some elements of some registers is on its way. -/
def Wave.landingAt (w : Wave) (regs elems : List Nat) : Bool := w.landings.any (fun d => regs.any (fun v => elems.any (d.isAt v)))

/-! ### Stores and atomics at their homes (R157 to R159) -/

/-- A store or atomic performed at its home: the machine after it, and the value the location held before. A network window's
peer answers what log entry 10 says. -/
def performAt (s : State) (team : Nat) (r : Req) : State × U64 :=
  let old := targetRead s team r.tgt r.size
  match r.tgt, r.op with
  | .win _ _, .bank _ _ _ => (s, Config.peerAtomic s.free)
  | _, .store v => (targetWrite s team r.tgt r.size v.toNat, BitVec.ofNat 64 old)
  | _, .bank op x c => (targetWrite s team r.tgt r.size (bankOp (8 * r.size) op old x.toNat c.toNat), BitVec.ofNat 64 old)

/-- The performance of a request of the focused wave, with the L1 copy of its cluster kept up to date (R151). DESIGN CHOICE (log entry
65): R151 says what a store does to a line that it hits and nothing of an atomic or bank operation, which brings the copy up to date too. -/
def performReq (s : State) (r : Req) : State × U64 :=
  let p := performAt s s.w.team r
  match r.tgt with
  | .pkg pa => (l1Update p.1 s.w.die s.w.cl pa r.size, p.2)
  | _ => p

/-! ### Token buckets (R191) -/

/-- The classes of R190 as the token registers order them: 0 BULK, 1 DEMAND, 2 SYNC. -/
def TokEntry.at (e : TokEntry) (c : Nat) : BitVec 16 := if c = 0 then e.bulk else if c = 1 then e.demand else e.sync

/-- The entry of a tenant, or the default one. -/
def TokTable.entry (t : TokTable) (asid : BitVec 16) : TokEntry := (t.tab.find? (fun e => e.asid == asid)).getD t.dflt

/-- The key of a tenant's bucket of a class. -/
def tokKey (asid : BitVec 16) (c : Nat) : Nat := asid.toNat * 4 + c

/-- Whether an instruction of a class may issue (R191): an unlimited rate, or a rate that is not 0 and at least one token. -/
def Cluster.hasToken (c : Cluster) (asid : BitVec 16) (k : Nat) : Bool :=
  (c.rate.entry asid).at k == 0xFFFF || ((c.rate.entry asid).at k != 0 && decide (1 ≤ spGet (0 : Int) c.tokens (tokKey asid k)))

/-- The sectors deducted from a bucket. -/
def Cluster.takeTokens (c : Cluster) (asid : BitVec 16) (k n : Nat) : Cluster :=
  if (c.rate.entry asid).at k = 0xFFFF then c
  else { c with tokens := spSet (0 : Int) c.tokens (tokKey asid k) (spGet (0 : Int) c.tokens (tokKey asid k) - n) }

/-- Sectors given back to a bucket: what was deducted at issue above what the access takes in the end. -/
def Cluster.giveTokens (c : Cluster) (asid : BitVec 16) (k n : Nat) : Cluster :=
  if (c.rate.entry asid).at k = 0xFFFF then c
  else { c with tokens := spSet (0 : Int) c.tokens (tokKey asid k) (spGet (0 : Int) c.tokens (tokKey asid k) + n) }

/-- The focused wave's sectors deducted from its tenant's bucket of a class. -/
def spendTokens (s : State) (k n : Nat) : State :=
  if n = 0 then s else s.setMyCluster (s.myCluster.takeTokens s.w.asid k n)

end Sys2Proof.Machine
end

