-- ==== Sys2Proof/Machine/Ops.lean ====
section
/-! DEFINITION. The shared operations of instructions: issue in the control thread and its checks, waits, the taking of an
exception and the return from one, exhaustion, forced entry and the forced full save (R132 to R137, R236 to R241, R286). -/

namespace Sys2Proof.Machine

/-! ### Results -/

/-- The control thread goes on with the next instruction (R285). -/
def advance (s : State) : State := s.mapW (fun w => { w with pc := w.pc + 4, wait := none })

/-- The control thread goes on at an address. -/
def jumpTo (s : State) (a : U64) : State := s.mapW (fun w => { w with pc := a, wait := none })

/-- A scalar register written, and the next instruction (R25). -/
def setS (s : State) (r : BitVec 5) (v : U64) : State := s.mapW (fun w => w.ss r v)

/-- The target of a branch: the address plus 4 times a signed offset, modulo 2^60 (R285). -/
def branchTo (pc : U64) (off : U64) : U64 := BitVec.ofNat 64 ((pc + 4 * off).toNat % 2 ^ 60)

/-- Flags merged into FFLAGS (R116). -/
def mergeFlags (s : State) (f : BitVec 5) : State := s.mapW (fun w => { w with cfg := { w.cfg with fflags := w.cfg.fflags ||| f } })

/-! ### What is in flight -/

/-- The scalar register that a queued word delivers to when it takes effect (R473). -/
def queueDest (w : BitVec 32) : Option (BitVec 5) :=
  match opOf w with
  | 0x41 => some (fd 5 w.toNat 19)
  | 0x4B => some (fd 5 w.toNat 19)
  | 0x4C => some (fd 5 w.toNat 19)
  | 0x4D => some (fd 5 w.toNat 7)
  | _ => none

/-- Whether a result for a scalar register is outstanding (R473); s0 never is. -/
def Wave.outstanding (w : Wave) (r : BitVec 5) : Bool :=
  r != 0 && (w.loads.any (fun l => l.dst == .sreg r) || w.reqs.any (fun q => q.dst == .sreg r) ||
    w.replies.any (fun q => q.dst == .sreg r) || w.vq.any (fun e => queueDest e.word == some r))

/-- The entries of the 32 that are taken (R38, R222). -/
def Wave.queued (w : Wave) : Nat := w.vq.length + w.mat.length

/-- The queue wait of the mask branches, fences and control-register accesses (R50, R116, R178): every earlier entry has taken
effect and the wave is quiescent; entries that a continuation holds back are no earlier ones (R135). In handler mode it is not made
(R239). -/
def Wave.settled (w : Wave) : Bool := w.trp.inh || (w.vqNow.isEmpty && w.fetchesNow.isEmpty && w.quiescent)

/-- Whether the wave is on its way off the cluster: a forced full save, or a YIELD or EXIT that waits. -/
def Wave.departing (w : Wave) : Bool :=
  w.leaving ||
    (match w.wait with
     | some (.issued (.yieldW _) _) => true
     | some (.issued .exitW _) => true
     | _ => false)

/-- Whether anything of the wave is still on its way: what R137, step 2, waits for, matrix work in flight, and a fence in its ordering
wait (R178). An element of a linked load that is not admitted is not (R187). -/
def Wave.inFlight (w : Wave) : Bool :=
  !(w.loads.isEmpty && w.vland.all (fun l => l.linked.isSome) && w.reqs.isEmpty && w.replies.isEmpty && w.mat.isEmpty && w.markers.isEmpty &&
    w.offers.isNone && w.fence.isNone)

/-- Whether every lane is at a block boundary or has its blocks held, with no VP left that has passed its block's last word
(R137, step 1). -/
def Wave.lanesDone (w : Wave) : Bool := w.runs.all (fun r => r.stopped) && w.vps.all (fun e => !w.atEnd e.1)

/-- Blocks whose every remaining VP is blocked on a cross-element queue are held, as in the save mode of R143 (R137). -/
def holdBlocked (s : State) : State :=
  s.w.runs.foldl (fun x r =>
    if !(x.w.runVps r.id).isEmpty && (x.w.runVps r.id).all (fun e => e.2.isBlocked) then stopRun x r else x) s

/-! ### Taking an exception (R236 to R240) -/

/-- Whether a double trap, or a save that waits, can write the context now. -/
def Wave.canSave (w : Wave) : Bool := !w.inFlight

/-- The end of a double trap (R240): context, event record of kind 0x30, removal; a save that faults is retried (R252). -/
def finishDouble (s : State) : State :=
  match s.w.doubleCause with
  | none => s
  | some (cause, val) =>
    if !s.w.canSave || saveHeld s then s
    else
      match saveContext (recordRemainders s) s.w.pc with
      | .error e => saveFaulted s e
      | .ok s1 => removeWave (waveRecord s1 0x30 cause.toNat false 0 0 (BitVec.ofNat 64 (s1.w.trp.epc.toNat * 4)) val)

/-- A double trap (R240): the wave issues nothing any more, and leaves once nothing of it is in flight. -/
def doubleTrap (s : State) (cause : BitVec 8) (val : U64) : State :=
  finishDouble (s.mapW (fun w => { w with doubleCause := some (cause, val), wait := none, leaving := false }))

/-- Trap entry (R237): with no handler, or in handler mode, a double trap; otherwise EPC, ECAUSE and EVAL are written, the wave
is a supervisor in handler mode, and its control thread stands at the handler. Every lane stops, latches become invalid (R87),
and of the traps not recorded only the asynchronous ones stay pending (R236). `spill` marks the trap of a spill or refill (R94). -/
def enterTrap (s : State) (src : Nat) (cause : BitVec 8) (iw vp : Nat) (val epc : U64) (issue : List Nat) (spill : Bool := false) : State :=
  if s.w.trp.inh || (s.die s.w.die).trapvec == 0 then doubleTrap s cause val
  else
    (endAll s).mapW (fun w => { w with
      trp := { epc := BitVec.ofNat 58 (epc.toNat / 4), inh := true, ppriv := w.sup, rskip := false, src := BitVec.ofNat 2 src,
               iw := BitVec.ofNat 7 iw, vp := BitVec.ofNat 14 vp, cause := cause, eval := val, issue := issue
               spill := spill }
      sup := true
      pc := BitVec.ofNat 64 ((s.die s.w.die).trapvec.toNat * 4)
      wait := none
      latches := []
      vland := w.vland.filter (fun l => l.linked.isNone)
      traps := w.traps.filter (fun t => t.src == 3) })

/-- A trap of a control-thread instruction, taken at once (R236): EPC names the instruction. -/
def trapAt (s : State) (cause : BitVec 8) (val : U64) : State := enterTrap s 0 cause 0 0 val s.w.pc []

/-- A trap whose EVAL is the address of the instruction (R238). -/
def trapHere (s : State) (cause : BitVec 8) : State := trapAt s cause s.w.pc

/-! ### Waits -/

/-- The control thread waits at its instruction, which has been issued and charged. -/
def waiting (i : Instr) (phase : Nat) (s : State) : State := s.mapW (fun w => { w with wait := some (.issued i phase) })

/-- The control thread stalls before its instruction, which is neither issued nor charged (R38, R206, R473). -/
def stalled (why : Stall) (s : State) : State := s.mapW (fun w => { w with wait := some (.stall why) })

/-- Whether an instruction is a FENCE or XFENCE. -/
def isFence : Instr → Bool
  | .fence _ _ => true
  | .xfence _ _ _ => true
  | _ => false

/-- Whether the control thread stands at a boundary in a wait: exhaustion, pre-emption or a trap abandons it (R132, R236), or, of a fence in
its ordering wait, leaves it to go on by itself (R178). An instruction that has taken effect and waits for its answer is in progress (R142). -/
def abandonable : Wait → Bool
  | .stall _ => true
  | .issued i _ =>
    match i with
    | .vcatch _ => true
    | .bwait _ _ => true
    | .waitaddr _ _ _ => true
    | .vxtake _ => true
    | .vxseed _ => true
    | .regclaim _ => true
    | .macq => true
    | .brany _ _ => true
    | .brall _ _ => true
    | .brnone _ _ => true
    | .crrd _ _ => true
    | .crwr _ _ => true
    | .fflagsAccess _ _ => true
    | .fence _ _ => true
    | .xfence _ _ _ => true
    | .yieldW _ => true
    | _ => false

/-- Whether the control thread stands at a boundary where an event may be taken. -/
def Wave.atBoundary (w : Wave) : Bool :=
  match w.wait with
  | none => true
  | some x => abandonable x

/-- A wait abandoned with no effect: the instruction counts as the next one (R132); a MACQ leaves the ownership queue (R211), a
REGCLAIM the vector queue, to be issued again (R377), unless its control thread is past it already; elements of a linked load
that are not admitted are asked for again (R187). A fence in its ordering wait is not abandoned: the control thread stands after it, and
it completes by itself (R178). -/
def abandon (s : State) : State :=
  let s1 := match s.w.wait with
    | some (.issued .macq _) => s.setMyCluster { s.myCluster with macq := s.myCluster.macq.filter (· != s.w.id) }
    | some (.issued (.regclaim _) 0) => s.mapW (fun w => { w with vq := w.vq.filter (fun e => e.pc != w.pc || opOf e.word != 0x44) })
    | some (.issued i 1) => if isFence i then s.mapW (fun w => { w with pc := w.pc + 4, fence := some i }) else s
    | _ => s
  s1.mapW (fun w => { w with wait := none, vland := w.vland.filter (fun l => l.linked.isNone) })

/-! ### Exhaustion, forced entry and the forced full save (R132 to R137) -/

/-- The first half of a forced full save (R136): the wave stops issuing and will resume at `pc`. -/
def beginSave (s : State) (pc : U64) (cause : Option (BitVec 8)) : State :=
  (abandon s).mapW (fun w => { w with leaving := true, savePc := pc, recCause := cause })

/-- The entry of the continuation table that the next forced entry uses (R134), or none when none is usable. -/
def contEntry (s : State) : Option U64 :=
  let base := s.w.hdr.cont
  let a : U64 := BitVec.ofNat 64 (base + 8 * s.w.bud.cidx.toNat)
  if base = 0 then none
  else
    match resolve s Acc.load false a 8 with
    | .error _ => none
    | .ok g =>
      if s.poisonedAt g then none
      else
        let e := loadValue s .vec s.sseq g 8
        if bits e 60 4 = 0 ∧ bits e 0 2 = 0 then some (BitVec.ofNat 64 e) else none

/-- Whether a failed link holds the read of the continuation table (R262). -/
def contHeld (s : State) : Bool :=
  !s.pkg.failedLinks.isEmpty && !s.w.ctl.incont && s.w.hdr.cont != 0 && spanHeld s (s.w.hdr.cont + 8 * s.w.bud.cidx.toNat, 8)

/-- Forced entry (R134), or in a continuation a forced full save (R136). -/
def forcedEntryAt (s : State) (cause : BitVec 8) : State :=
  let s0 := abandon s
  if s0.w.ctl.incont then
    beginSave (s0.mapW (fun w => { w with bud := { w.bud with exhaust := none, preempt := false, deferred := false } })) s0.w.bud.xpc.toNat none
  else
    let s1 := s0.mapW (fun w => { w with bud := { w.bud with
      xpc := BitVec.ofNat 60 w.pc.toNat, xcause := cause, exhaust := none, preempt := false, deferred := false } })
    match contEntry s1 with
    | none => beginSave s1 (BitVec.ofNat 64 s1.w.bud.xpc.toNat) none
    | some pc =>
      s1.mapW (fun w => { w with
        pc := pc
        ctl := { w.ctl with incont := true }
        vq := w.vq.map (fun e => { e with before := true })
        fetches := w.fetches.map (fun f => { f with before := true })
        bud := { w.bud with ibgt := 256, mbgt := 64, grace := true, graceHit := false } })

/-- Exhaustion found by a check (R132): forced entry, for which a held read of the continuation table makes the control thread wait. -/
def exhausted (s : State) (cause : BitVec 8) : State := if contHeld s then stalled .walk s else forcedEntryAt s cause

/-- The forced full save once nothing is in flight: the event record of kind 0x0D (R136, R243), the context, and the wave
leaves (R137). -/
def finishSave (s : State) : State :=
  let s0 := (endAll s).mapW (fun w => { w with traps := w.traps.filter (fun t => t.src == 3) })
  let w := s0.w
  let cause := match w.recCause with
    | some c => c
    | none => w.bud.xcause
  let s1 := saveAndLeave s0 w.savePc
  if s1.w.saveFault then s1 else
    ringWrite s1 w.die w.wid.toNat (recordWord 0x0D cause.toNat w.asid w.die w.cl false 0 0) w.savePc.toNat 0

/-! ### Issue in the control thread (R286, checks 1 to 6) -/

/-- What an instruction asks at issue: the roles that may issue it (R210), whether its privileged form is refused here (R237),
matrix ownership (R211), an entry of the vector queue (R38), refusal in handler mode (R239), the scalar registers that must not
be outstanding (R473), the bound of its charge (R127, R128), its traffic class with whether it needs a token (R191), a place in the bulk
engine (R336), whether it accesses memory by itself, so that it waits for a fence (R178), the addresses that it translates when it
issues (R166), and the instruction words that it reads at issue (R206). -/
structure Gate where
  roles : List Nat := [0, 1, 2, 3]
  privBad : Bool := false
  own : Bool := false
  queue : Bool := false
  noHandler : Bool := false
  deps : List (BitVec 5) := []
  ticks : Nat := 1
  sectors : Nat := 0
  cls : Option Nat := none
  full : Bool := false
  mem : Bool := false
  vas : List Nat := []
  await : State → Option State := fun _ => none

/-- The trap of checks 1 to 5 of R286, if any; in handler mode an instruction that would enter the queue is an ILLOP (R239). -/
def gateTrap (i : Instr) (g : Gate) (s : State) : Option (BitVec 8) :=
  if reservedCode i then some 0x01
  else if s.w.trp.inh && (g.queue || g.noHandler) then some 0x01
  else if !g.roles.contains (s.w.hdr.role s.w.member) then some 0x03
  else if g.privBad then some 0x04
  else if g.own && s.myCluster.owner != some s.w.id then some 0x0C
  else none

/-- Whether an instruction has accesses that a fence orders after itself. -/
def Gate.touches (g : Gate) : Bool := g.mem || g.queue || g.cls.isSome

/-- Why the instruction must wait before it issues, if it must: for a fence (R178), an outstanding scalar (R473), a queue place (R38), a
place in the bulk engine (R336) or a token (R191). -/
def gateStall (g : Gate) (s : State) : Option Stall :=
  if s.w.fence.isSome && (g.touches || !(s.w.trp.inh || s.w.ctl.incont)) then some .fence
  else
    match g.deps.find? s.w.outstanding with
    | some r => some (.scalar r)
    | none =>
      if g.queue && decide (32 ≤ s.w.queued) then some .queue
      else if g.full then some .engine
      else
        match g.cls with
        | none => none
        | some c => if decide (g.sectors ≠ 0) && !s.myCluster.hasToken s.w.asid c then some (.token c) else none

/-- The budget check (R126, R128): the cause of exhaustion, if any; in handler mode none is made (R239). -/
def gateShort (g : Gate) (s : State) : Option (BitVec 8) :=
  if s.w.trp.inh then none
  else if !s.w.fitsT g.ticks then some 0x20
  else if !s.w.fitsS g.sectors then some 0x21
  else none

/-- Whether an instruction issues in this state: every check of R286 up to the budget check passes, and nothing makes it wait. -/
def issues (i : Instr) (g : Gate) (s : State) : Bool :=
  s.agent == .control && s.w.wait == none && gateTrap i g s == none && gateStall g s == none && gateShort g s == none &&
    (g.await s).isNone && (awaitWalks 0 g.vas s).isNone

/-- The state in which an issued instruction acts: its charge deducted. -/
def charged (g : Gate) (s : State) : State := s.mapW (fun w => { w.deduct g.ticks g.sectors with wait := none })

/-- A word of a block that a lane executes: its run, its VPs, its position, and the word as staggered by its frame. -/
structure Issue where
  run : Run
  vps : List Nat
  pos : Nat
  rep : Nat
  word : BitVec 32

/-- The issue step that the machine's agent executes, if it is a lane. -/
def currentIssue (s : State) : Option Issue :=
  match s.agent with
  | .control => none
  | .lane r vps =>
    match s.w.run? r, vps.head?.bind s.w.vp with
    | some run, some (.run _ pos rep _ _) => some ⟨run, vps, pos, rep, wordAt run.words pos rep⟩
    | _, _ => none

/-- The address of the word of an issue step. -/
def Issue.addr (x : Issue) : U64 := x.run.addr + 4 * (BitVec.ofNat 64 (x.pos + 1))

/-- A trap of an issue step (R35, R236): no effect, the lowest VP and the word index recorded, the VPs of the step kept for
ERET (R241). -/
def blockTrap (s : State) (x : Issue) (cause : BitVec 8) (vp : Nat) (val : U64) : State :=
  raise s { src := 1, cause := cause, iw := x.pos + 1, vp := vp, val := val, vps := x.vps }

/-- A trap of an issue step whose EVAL is the address of the instruction. -/
def blockTrapHere (s : State) (x : Issue) (cause : BitVec 8) : State := blockTrap s x cause (x.vps.headD 0) x.addr

/-- A lane reaches a word of the control or header class, or a word that raises ILLOP (R31, R286). -/
def laneRefuses (i : Instr) (s : State) : Out :=
  match currentIssue s with
  | none => .refused (.notEnabled "LANE")
  | some x => .next (blockTrapHere s x (if reservedCode i then 0x01 else 0x13))

/-- Issue in the control thread: the checks of R286 in their order, then the instruction's own effect; an instruction that has
issued and waits goes on where it waits. -/
def issueControl (i : Instr) (g : Gate) (s : State) (body : State → Out) : Out :=
  match s.agent with
  | .lane _ _ => laneRefuses i s
  | .control =>
    match s.w.wait with
    | some (.issued j _) => if j = i then body s else .next s
    | _ =>
      match gateTrap i g s with
      | some c => .next (trapHere s c)
      | none =>
        match g.await s with
        | some t => .next (stalled .fetch t)
        | none =>
        match gateStall g s with
        | some why => .next (stalled why s)
        | none =>
          match gateShort g s with
          | some c => .next (exhausted s c)
          | none =>
            match awaitWalks 0 g.vas s with
            | some t => .next (stalled .walk t)
            | none => body (charged g s)

/-- The phase of the wait in which an instruction resumes, if it resumes. -/
def Wave.phase (w : Wave) : Option Nat :=
  match w.wait with
  | some (.issued _ p) => some p
  | _ => none

/-- A block-class instruction that the control thread reaches: ILLOP or the AIB trap (R31). -/
def controlRefuses (i : Instr) (s : State) : Out := .next (trapHere s (if reservedCode i then 0x01 else 0x13))

/-- An entry placed in the vector instruction queue (R36, R38). -/
def enqueue (s : State) (e : QEntry) : State := s.mapW (fun w => { w with vq := w.vq ++ [e] })

/-- The word of the control thread's instruction, as the queue keeps it. -/
def wordOf (i : Instr) : BitVec 32 := (encode i).getD 0

/-- The sectors that an instruction of a class deducts from its bucket at issue (R191; log entry 31): its bound, until what it takes is
known. -/
def bookTokens (g : Gate) (s : State) : State :=
  match g.cls with
  | none => s
  | some c => spendTokens s c g.sectors

/-- An instruction that enters the queue with its bound, and the next instruction. -/
def enqueueNext (i : Instr) (g : Gate) (x y z : U64) (s : State) : Out :=
  .next (advance (enqueue (bookTokens g s)
    { word := wordOf i, pc := s.w.pc, x := x, y := y, z := z
      rsvT := if s.w.trp.inh then 0 else g.ticks, rsvS := if s.w.trp.inh then 0 else g.sectors }))

/-- A row without encoding: what the machine does by itself when its rule's condition holds. -/
def event (name : String) (enabled : State → Bool) (eff : State → State) (s : State) : Out :=
  if enabled s then .next (eff s) else .refused (.notEnabled name)

/-- Whether a die takes part: it is in the package, the package runs work, and the die is not halted (R260). -/
def State.running (s : State) (d : Nat) : Bool := decide (s.pkg.service = .running) && decide (d < s.ndie) && !(s.die d).halted

/-! ### The return from a trap (R241) -/

/-- The last-use declarations of the words that a VP of a run has not passed (R79). -/
def restDead (r : Run) (pos : Nat) : List (Nat × Nat) :=
  (List.range (r.words.length - pos)).flatMap (fun k =>
    (List.range (replays r.words (pos + k))).flatMap (fun q =>
      (wordDead (wordAt r.words (pos + k) q)).map (fun v => (linOf r.words (pos + k) q, v))))

/-- VPs that end their block as by VPSTOP: at the end of its words with no target (R32); one with its target pending becomes idle. -/
def stopVps (w : Wave) : List Nat → Wave
  | [] => w
  | v :: t =>
    match w.vp v with
    | some (.run id _ _ _ _) => stopVps (w.setVp v (.run id (((w.run? id).map (fun r => r.words.length)).getD 0) 0 none false)) t
    | some (.pend _ _) => stopVps (w.idleVp v) t
    | _ => stopVps w t

/-- The last-use declarations that VPs still have before them in their lockstep blocks, made for them: VPs that ERET abandons count as
committed for every word of the block (R247). -/
def declareRest (w : Wave) : List Nat → Wave
  | [] => w
  | v :: t =>
    match w.vp v with
    | some (.run id pos _ _ _) =>
      (match w.run? id with
       | none => declareRest w t
       | some r =>
         let more := if r.kind.isThread then [] else (restDead r pos).filter (fun d => !r.decl.contains d)
         declareRest (w.setRun { r with decl := r.decl ++ more }) t)
    | _ => declareRest w t

/-- The headers of the targets still pending, checked again (R241). -/
def recheck (s : State) : List (Nat × VpSt) → State
  | [] => s
  | (v, .pend a iw) :: t => recheck (followTarget (s.mapW (fun w => { w with vps := lkDel w.vps v })) v a iw) t
  | _ :: t => recheck s t

/-- The oldest fetch or queue entry discarded with no effect (R241): VPs of a catch fetch stay parked, those of a re-sent one
become idle; a discarded VFETCH gives its block's reservation back. -/
def discardOldest (s : State) : State :=
  match s.w.fetchesNow with
  | f :: _ =>
    s.mapW (fun w => { w.dropFetch with
      vps := w.vps.filterMap (fun e =>
        match e.2 with
        | .caught a => if a = f.addr then (if f.resent then none else some (e.1, .parked a)) else some e
        | _ => some e) })
  | [] =>
    match s.w.vqNow with
    | [] => s
    | e :: _ =>
      s.mapW (fun w => (if opOf e.word = 0x45 ∧ e.rsvT ≠ 0 then w.refund (e.rsvT - 1) e.rsvS else w).dropEntry)

/-- The return from a trap (R241): held VPs resume, but for those held by a continuation or a pre-emption request (R135,
R142). -/
def leaveTrap (s : State) : State :=
  let t := s.w.trp
  let s1 := s.mapW (fun w => { w with
    pc := BitVec.ofNat 64 (t.epc.toNat * 4), sup := t.ppriv, latches := [], trp := { t with inh := false, issue := [], spill := false }, wait := none
    spillBad := w.spillBad && !t.spill
    runs := if w.ctl.incont || w.bud.preempt then w.runs else w.runs.map (fun r => { r with stopped := false }) })
  let s2 :=
    if t.src = 1 ∧ t.rskip then s1.mapW (fun w => w.runs.foldl (fun y r => y.performReleases r.id) (stopVps (declareRest w t.issue) t.issue))
    else if t.src = 2 ∧ t.rskip then discardOldest s1
    else s1
  settleFrontier (recheck s2 s2.w.vps)

end Sys2Proof.Machine
end

