-- ==== Sys2Proof/Machine/Operands.lean ====
section
/-! DEFINITION. Operands of block instructions, the bypass latches, cross-element queues, and the issue step of a lane with its
checks, its charge and its releases (R31 to R35, R51 to R59, R75 to R87, R127 to R130, R286, R290 to R292, R392). -/

namespace Sys2Proof.Machine

/-! ### Cross-element queues (R51, R52) -/

/-- The entries of one boundary's storage. -/
def Wave.boundary (w : Wave) (b : Nat) : List XEntry := w.xq.filter (fun e => e.bnd == b)

/-- The boundary that VP `v`'s VXSEND crosses: that of VP v + 1, or the take boundary for the last VP. -/
def Wave.sendBnd (w : Wave) (v : Nat) : Nat := if v + 1 = w.cfg.vl then takeBnd else bndOf w.lanes (v + 1)

/-- The oldest entry addressed to a VP. -/
def Wave.xinEntry (w : Wave) (v : Nat) : Option XEntry := w.xq.find? (fun e => e.vp == v && e.bnd != takeBnd)

/-- The first entry of a list with a property removed. -/
def dropFirst (p : XEntry → Bool) : List XEntry → List XEntry
  | [] => []
  | e :: t => if p e then t else e :: dropFirst p t

/-- A VP's oldest entry popped. -/
def popXin (s : State) (v : Nat) : State :=
  s.mapW (fun w => { w with xq := dropFirst (fun e => e.vp == v && e.bnd != takeBnd) w.xq, qage := s.free })

/-- An entry pushed; VPs that wait for room or for an entry are unblocked by CROSS_ELEMENT_UNBLOCK. -/
def pushX (s : State) (e : XEntry) : State := s.mapW (fun w => { w with xq := w.xq ++ [e], qage := s.free })

/-- The queue segment allocated on the first push (R53). -/
def allocQseg (s : State) : State :=
  if s.w.qseg = .released then s.mapW (fun w => { w with qseg := .live }) else s

/-! ### Source operands (R290 to R292) -/

/-- The latches of a VP, newest first; only valid ones are listed (R86, R87). -/
def Wave.latch (w : Wave) (v : Nat) : List U64 := (lkGet w.latches v).getD []

/-- A value pushed into a VP's latches (R86). -/
def Wave.pushLatch (w : Wave) (v : Nat) (x : U64) : Wave := { w with latches := lkSet w.latches v ((x :: w.latch v).take 4) }

/-- The value of a source specifier for a VP, at EW bits. -/
def Wave.operand (w : Wave) (x : BitVec 8) (v : Nat) : Nat :=
  let n := x.toNat
  let raw : U64 :=
    if bits n 6 1 = 0 then (w.reg (bits n 0 6)).elem v
    else if n < 0x44 then (w.latch v).getD (n - 0x40) 0
    else if n = 0x44 then ((w.xinEntry v).map (fun e => e.val)).getD 0
    else w.gs (BitVec.ofNat 5 (n - 0x48))
  raw.toNat % 2 ^ w.ew

/-- An immediate sign-extended to EW (R289). -/
def Wave.imm (w : Wave) (i : BitVec 8) : Nat := uval w.ew i.toInt

/-- The scalar register of a specifier, if it names one. -/
def specScalar (x : BitVec 8) : List (BitVec 5) := if 0x48 ≤ x.toNat ∧ x.toNat < 0x68 then [BitVec.ofNat 5 (x.toNat - 0x48)] else []

/-- The register of a specifier, if it names one. -/
def specReg (x : BitVec 8) : List Nat := if specIsReg x.toNat then [bits x.toNat 0 6] else []

/-- The register that a specifier declares dead (R79). -/
def specDead (x : BitVec 8) : List Nat := if specIsReg x.toNat && bits x.toNat 7 1 == 1 then [bits x.toNat 0 6] else []

/-! ### What an issue step asks -/

/-- What a block instruction asks of its issue step: among it the VPs whose boundary has no room for what they send, and whether
it uses the queue segment (R52), whether every executing VP reads its sources (R427) or writes its destination (R93), the scalars that it
reads besides its sources (R473), the count of its sectors (R131), whether it uses the gather engine (R155), and the addresses that it
translates (R166). -/
structure BGate where
  m : BitVec 1 := 0
  srcs : List (BitVec 8) := []
  reads : List Nat := []
  writes : List Nat := []
  dead : List Nat := []
  xtraBad : Bool := false
  idemBad : Bool := false
  cross : Bool := false
  bad7 : Bool := false
  frame : Option (BitVec 8) := none
  bad9 : Bool := false
  hold : Bool := false
  late : Option (BitVec 8 × Nat × U64) := none
  cls : Option Nat := none
  room : List Nat := []
  qseg : Bool := false
  readAll : Bool := false
  writeAll : Bool := false
  deps : List (BitVec 5) := []
  sects : Nat := 0
  gath : Bool := false
  vas : List Nat := []

/-- The registers that an issue step reads. -/
def BGate.allReads (g : BGate) : List Nat := g.srcs.flatMap specReg ++ g.reads

/-- The registers that an issue step declares dead, but for its destinations (R79, R81). -/
def BGate.allDead (g : BGate) : List Nat := ((g.srcs.flatMap specDead ++ g.dead).filter (fun r => !g.writes.contains r)).eraseDups

/-- The active VPs of an issue step. -/
def activeVps (w : Wave) (m : BitVec 1) (vps : List Nat) : List Nat := vps.filter (fun v => w.active0 m v)

/-- The VPs that read their sources: the active ones, or every executing one (R427). -/
def BGate.readers (g : BGate) (w : Wave) (vps : List Nat) : List Nat := if g.readAll then vps else activeVps w g.m vps

/-- Checks 1, 2 and 7 to 9 of R286 on an issue step. -/
def blockCause (i : Instr) (g : BGate) (s : State) (x : Issue) : Option (BitVec 8) :=
  if reservedCode i || g.xtraBad then some 0x01
  else if x.run.idem && (g.idemBad || g.srcs.contains 0x44) then some 0x13
  else if g.cross && x.run.kind.isThread then some 0x13
  else if (g.allReads ++ g.writes).any (fun r => decide (s.w.cfg.nreg ≤ r)) || g.bad7 then some 0x01
  else if g.frame.isSome then g.frame
  else if g.bad9 then some 0x02
  else none

/-- The write waits for a release that another lane has still to reach (R82). -/
def pendingRelease (g : BGate) (x : Issue) : Bool :=
  !x.run.kind.isThread && x.run.decl.any (fun d => g.writes.contains d.2 && decide (d.1 < linOf x.run.words x.pos x.rep))

/-- Whether a write replaces every element below VL (R93): a word that every VP executes and whose mask covers them all, or that writes
every executing VP. -/
def replacesAll (s : State) (x : Issue) (g : BGate) : Bool :=
  !x.run.kind.isThread && (s.w.runVps x.run.id).length == s.w.cfg.vl && (g.writeAll || (List.range s.w.cfg.vl).all (s.w.active0 g.m))

/-- The spilled registers that must be refilled before the step (R93); 64 is the queue segment. -/
def refillNeeds (s : State) (x : Issue) (g : BGate) (useQueue : Bool) : List Nat :=
  (g.allReads.filter s.w.spilled ++ (if replacesAll s x g then [] else g.writes.filter s.w.spilled)).eraseDups ++
    (if useQueue && s.w.qseg == .spilled then [64] else [])

/-- The segments per lane that the step's writes allocate (R75). -/
def segsNeeded (s : State) (g : BGate) : Nat :=
  g.writes.foldl (fun x r => x + s.w.grow r) (if g.qseg && s.w.qseg == .released then 1 else 0)

/-- Whether every VP of the run stands at the issue step, as a cross-element instruction asks (R39). -/
def allPresent (s : State) (x : Issue) : Bool :=
  (s.w.runVps x.run.id).all (fun e => x.vps.contains e.1 &&
    (match e.2 with | .run _ pos rep _ _ => decide (pos = x.pos ∧ rep = x.rep) | _ => false))

/-- The scalar registers that a step reads. -/
def BGate.scalars (g : BGate) : List (BitVec 5) := g.srcs.flatMap specScalar ++ g.deps

/-- Whether an issue step waits: for a release, for a refill, for segments, for other lanes, for an outstanding scalar (R473), for elements
on their way (R406), for a token, for the gather engine or for what its own entry names. -/
def blockStalls (s : State) (x : Issue) (g : BGate) (useQueue : Bool) : Bool :=
  g.hold || pendingRelease g x || (g.cross && !allPresent s x) || !(refillNeeds s x g useQueue).isEmpty ||
    !canAlloc s (segsNeeded s g) || g.scalars.any s.w.outstanding || s.w.landingAt (g.allReads ++ g.writes) x.vps || (g.gath && engineFull s) ||
    (match g.cls with | none => false | some c => decide (g.sects ≠ 0) && !s.myCluster.hasToken s.w.asid c)

/-- A step that waits records what it waits for, for REFILL and SPILL_ENGINE. -/
def recordNeeds (s : State) (x : Issue) (g : BGate) (useQueue : Bool) : State :=
  s.mapW (fun w => { w with want := (w.want ++ refillNeeds s x g useQueue).eraseDups
                            segNeed := max w.segNeed (if poolHas s (segsNeeded s g) then 0 else segsNeeded s g) })

/-- The step's own wave spills registers of its own where the step's writes would raise its holding above its QUOTA (R95). -/
def stepRoom (s : State) (x : Issue) (g : BGate) (useQueue : Bool) : State :=
  if (refillNeeds s x g useQueue).isEmpty then makeRoom s (segsNeeded s g) else s

/-- Whether a step reads a register as released (R85): it is, or it was when the word's first issue step read and allocated it, since
every source is read before any result is written (R392). -/
def readsReleased (s : State) (x : Issue) (r : Nat) : Bool :=
  decide ((s.w.reg r).st = .released) || x.run.fresh.contains (linOf x.run.words x.pos x.rep, r)

/-- Registers that the step reads as released and allocates, with the word. -/
def freshReads (s : State) (x : Issue) (g : BGate) : List (Nat × Nat) :=
  (g.allReads.filter (fun r => g.writes.contains r && decide ((s.w.reg r).st = .released))).map (fun r =>
    (linOf x.run.words x.pos x.rep, r))

/-- Check 10 of R286: the trap of a read of an element that holds an error, of a released register or of an invalid latch, with
its VP and value (R85, R87, R253). -/
def operandTrap (s : State) (x : Issue) (g : BGate) : Option (BitVec 8 × Nat × U64) :=
  let act := g.readers s.w x.vps
  match act with
  | [] => none
  | v :: _ =>
    match s.w.badElem g.allReads act with
    | some (i, x) => some (0x0F, i, x)
    | none =>
    match g.allReads.find? (fun r => s.w.ctl.rdreltrap && readsReleased s x r) with
    | some r => some (0x08, v, BitVec.ofNat 64 r)
    | none =>
      (g.srcs.filterMap (fun b =>
        if 0x40 ≤ b.toNat ∧ b.toNat < 0x44 ∧ s.w.ctl.lattrap then
          (act.find? (fun u => decide ((s.w.latch u).length ≤ b.toNat - 0x40))).map (fun u =>
            ((0x09 : BitVec 8), u, BitVec.ofNat 64 (b.toNat - 0x40)))
        else none)).head?

/-- WSTAT.RDREL and WSTAT.LATINV set by the step's reads (R85, R87). -/
def readFlags (s : State) (x : Issue) (g : BGate) : State :=
  let act := g.readers s.w x.vps
  let rd := !act.isEmpty && g.allReads.any (readsReleased s x)
  let li := g.srcs.any (fun b => decide (0x40 ≤ b.toNat ∧ b.toNat < 0x44) &&
    act.any (fun u => decide ((s.w.latch u).length ≤ b.toNat - 0x40)))
  s.mapW (fun w => { w with ctl := { w.ctl with rdrel := w.ctl.rdrel || rd, latinv := w.ctl.latinv || li } })

/-! ### Redundant checking (R58, R59) -/

/-- How many comparisons of a pair-lane check disagree: none where no idle pair lane checks the step. VXSEND is a queue operation, which
is never checked (R52, R58). -/
def dualCase (s : State) (x : Issue) : Nat :=
  let j := s.w.laneOf (x.vps.headD 0)
  if s.w.ctl.dual && decide (2 ≤ s.w.lanes) && isArith (opOf x.word) && opOf x.word != 0x69 && (s.w.nextVp (j ^^^ 1)).isNone then
    Config.dualMismatch s.free
  else 0

/-- The machine-check report of a mismatch (R59, R255): one followed by DUALMIS is two mismatches of the lane. -/
def dualReport (s : State) (x : Issue) (resolved : Bool) : State :=
  let v := x.vps.headD 0
  let s1 := waveRecord s 0x0E 0 resolved 1 v x.addr x.addr
  let s2 := bumpWear s1 (wearLane s.w.die (s.siteOf s.w.die s.w.cl) (s.physLane s.w.die s.w.cl (s.w.base + s.w.laneOf v)))
    (if resolved then 1 else 2)
  s2.mapW (fun w => { w with ctl := { w.ctl with dualfix := w.ctl.dualfix || resolved } })

/-! ### Commit (R79, R127, R130, R307) -/

/-- A count of VPs per word, raised by `n`. -/
def bumpSeen (l : List (Nat × Nat)) (k n : Nat) : List (Nat × Nat) := spSet 0 l k (spGet 0 l k + n)

/-- The VPs of a step that still stand at it move on (R307); one that the step sent to the block's end stays there. -/
def moveOn (w : Wave) (x : Issue) : List Nat → Wave
  | [] => w
  | v :: t =>
    match w.vp v with
    | some (.run r pos rep tg _) =>
      if r = x.run.id ∧ pos = x.pos ∧ rep = x.rep then
        moveOn (w.setVp v (.run r (nextPos x.run.words pos rep).1 (nextPos x.run.words pos rep).2 tg false)) x t
      else moveOn w x t
    | _ => moveOn w x t

/-- The commit of an issue step for its VPs: what it is charged (R127; at once for catch and re-run blocks, R130), its
declarations of last use (R79, none in thread mode, R80), its VPs' positions, and the releases that are now due. -/
def commitIssue (s : State) (x : Issue) (dead : List Nat) (steps : Nat) (fresh : List (Nat × Nat)) : State :=
  let w := s.w
  match w.run? x.run.id with
  | none => s
  | some r =>
    let lin := linOf r.words x.pos x.rep
    let old := spGet 0 r.seen lin
    let inc := wordTicks (old + x.vps.length) x.word - (if old = 0 then 0 else wordTicks old x.word)
    let decl := if r.kind.isThread then r.decl
      else r.decl ++ (dead.map (fun d => (lin, d))).filter (fun d => !r.decl.contains d)
    let r1 : Run := { r with
      seen := bumpSeen r.seen lin x.vps.length, ticks := r.ticks + inc, steps := r.steps + steps, decl := decl
      fresh := r.fresh ++ fresh }
    let w1 := w.setRun r1
    let w2 := match r.kind with
      | .catchGroup => w1.deduct inc 0
      | .resent => w1.deduct inc 0
      | _ => w1
    s.setW ((moveOn w2 x x.vps).performReleases r.id)

/-- Sectors of VP-local accesses: kept with the run until it settles, charged at once in a catch or re-run block (R130). -/
def runSectors (s : State) (id n : Nat) : State :=
  match s.w.run? id with
  | none => s
  | some r =>
    match r.kind with
    | .catchGroup => s.mapW (fun w => w.deduct 0 n)
    | .resent => s.mapW (fun w => w.deduct 0 n)
    | _ => s.mapW (fun w => w.setRun { r with sect := r.sect + n })

/-- The issue steps that one commit counts (R143): one, or for a cross-element instruction one per packed group of each lane. -/
def stepsCounted (s : State) (x : Issue) (cross : Bool) : Nat :=
  if cross then
    (List.range s.w.lanes).foldl (fun n j => n + ceilDiv (x.vps.filter (fun v => s.w.laneOf v == j)).length (s.w.pack x.run.kind)) 0
  else 1

/-- VPs marked blocked on a cross-element queue (R28, R52). -/
def blockVps (s : State) : List Nat → State
  | [] => s
  | v :: t =>
    match s.w.vp v with
    | some (.run r pos rep tg _) => blockVps (s.mapW (fun w => w.setVp v (.run r pos rep tg true))) t
    | _ => blockVps s t

/-- The VPs of a step that lack what they wait for at a cross-element queue: an entry for `xin`, or room for
what they send. -/
def lackXin (s : State) (x : Issue) (g : BGate) : List Nat :=
  g.room ++ (if g.srcs.contains 0x44 then (activeVps s.w g.m x.vps).filter (fun v => (s.w.xinEntry v).isNone) else [])

/-- Whether a step reads or fills the wave's cross-element queues. -/
def BGate.useQueue (g : BGate) : Bool := g.qseg || g.srcs.contains 0x44

/-- `xin` entries popped once for every active VP of the step (R52). -/
def popAll (s : State) (x : Issue) (g : BGate) : State :=
  if g.srcs.contains 0x44 then (activeVps s.w g.m x.vps).foldl popXin s else s

/-- The number under which a lane of the wave waits for its translations (R166). -/
def Issue.waiter (x : Issue) (w : Wave) : Nat := 2 + w.laneOf (x.vps.headD 0)

/-- Whether every check and wait of an issue step passes, so that its instruction acts. -/
def stepReady (i : Instr) (g : BGate) (s : State) (x : Issue) : Bool :=
  blockCause i g s x == none && !blockStalls s x g g.useQueue && (awaitWalks (x.waiter s.w) g.vas s).isNone && (lackXin s x g).isEmpty &&
    operandTrap s x g == none && g.late == none && decide (dualCase s x < 2)

/-- One issue step of a lane: the checks of R286 in order, waits, the instruction's effect, and the commit. -/
def runIssue (i : Instr) (g : BGate) (s : State) (x : Issue) (body : Issue → State → State) : State :=
  match blockCause i g s x with
  | some c => blockTrapHere s x c
  | none =>
    let s0 := stepRoom s x g g.useQueue
    if blockStalls s0 x g g.useQueue then recordNeeds s0 x g g.useQueue
    else if !(lackXin s0 x g).isEmpty then blockVps s0 (lackXin s0 x g)
    else
    match awaitWalks (x.waiter s0.w) g.vas s0 with
    | some t => t
    | none =>
      match operandTrap s0 x g with
      | some (c, v, val) => blockTrap s0 x c v val
      | none =>
        match g.late with
        | some (c, v, val) => blockTrap s0 x c v val
        | none =>
          let n := dualCase s0 x
          if 2 ≤ n then blockTrapHere (dualReport s0 x false) x 0x0E
          else
            let s1 := readFlags (if n = 1 then dualReport s0 x true else s0) x g
            commitIssue (popAll (body x s1) x g) x g.allDead (stepsCounted s x g.cross) (freshReads s0 x g)

/-- A block-class instruction: refused in the control thread (R31), otherwise the issue step of its lane. -/
def issueBlock (i : Instr) (g : State → Issue → BGate) (s : State) (body : Issue → State → State) : Out :=
  match s.agent with
  | .control => controlRefuses i s
  | .lane _ _ =>
    match currentIssue s with
    | none => .refused (.notEnabled "LANE")
    | some x => .next (runIssue i (g s x) s x body)

/-! ### Element-wise instructions (R392) -/

/-- What an element-wise instruction asks: `acc` reads vd, `fw` is the width of a floating format (R103). -/
def vGate (m : BitVec 1) (d : BitVec 6) (ws : BitVec 1) (srcs : List (BitVec 8)) (acc : Bool) (fw : Option Nat) (s : State) : BGate :=
  { m := m, srcs := srcs
    reads := if acc then [d.toNat] else []
    writes := if ws = 0 then [d.toNat] else []
    bad7 := ws == 1 && !acc && d != 0
    bad9 := (match fw with | none => false | some n => n != s.w.ew) }

/-- A result for each active VP: computed with its flags from the state before the step. -/
def results (w : Wave) (m : BitVec 1) (vps : List Nat) (f : Nat → Nat × BitVec 5) : List (Nat × Nat × BitVec 5) :=
  (activeVps w m vps).map (fun v => (v, f v))

/-- Results written to a register under R75 and R76, or with ws = 1 to the latches only; each active VP pushes its result (R86). -/
def putResults (s : State) (d : BitVec 6) (ws : BitVec 1) (l : List (Nat × Nat × BitVec 5)) : State :=
  let s1 := mergeFlags s (l.foldl (fun x e => x ||| e.2.2) 0)
  s1.mapW (fun w =>
    let w1 := if ws = 0 then w.writeReg s.free d.toNat (l.map (fun e => (e.1, BitVec.ofNat 64 e.2.1))) else w
    l.foldl (fun y e => y.pushLatch e.1 (BitVec.ofNat 64 (e.2.1 % 2 ^ w.ew))) w1)

/-- An element-wise instruction (R392): `f` gives the result and flags of one VP. -/
def elementwise (i : Instr) (m : BitVec 1) (d : BitVec 6) (ws : BitVec 1) (srcs : List (BitVec 8)) (acc : Bool) (fw : Option Nat)
    (f : Wave → Nat → Nat × BitVec 5) (s : State) : Out :=
  issueBlock i (fun s _ => vGate m d ws srcs acc fw s) s (fun x s1 => putResults s1 d ws (results s1.w m x.vps (f s1.w)))

/-- A compare into a mask (R401): bits of active VPs only, no latch pushed. -/
def compareInto (i : Instr) (m : BitVec 1) (md : BitVec 3) (srcs : List (BitVec 8)) (fw : Option Nat)
    (f : Wave → Nat → Bool × BitVec 5) (s : State) : Out :=
  issueBlock i (fun s _ => vGate m 0 1 srcs false fw s) s (fun x s1 =>
    let l := (activeVps s1.w m x.vps).map (fun v => (v, f s1.w v))
    let s2 := mergeFlags s1 (l.foldl (fun y e => y ||| e.2.2) 0)
    s2.mapW (fun w => l.foldl (fun y e => y.setMaskBit md.toNat e.1 e.2.1) w))

end Sys2Proof.Machine
end

