-- ==== Sys2Proof/Machine/Queue.lean ====
section
/-! DEFINITION. How an entry of the vector instruction queue takes effect: when the queue moves, the checks made then, the waits
for registers, the settlement of the charge, and the loss of parked VPs at a new VL (R37, R38, R84, R85, R93, R129, R222, R236,
R244, R286). -/

namespace Sys2Proof.Machine

/-- Whether the wave's queue may move: the wave is resident and issuing, not in handler mode, with no synchronous trap and no
pre-emption waiting, and quiescent (R37, R142, R236, R239). -/
def queueMoves (s : State) : Bool :=
  let w := s.w
  w.isResident && !w.trp.inh && w.traps.all (fun t => t.src == 3) && w.quiescent && w.vland.all (fun l => l.linked.isNone) &&
    !w.departing && w.doubleCause.isNone && !w.saveFault && !w.frozen && !w.bud.preempt && !(s.die w.die).halted &&
    decide (s.pkg.service = .running) && !w.wantsMat

/-- What an entry asks when it takes effect: the registers it reads and writes, whether its write replaces every element below
VL, whether it waits for every matrix instruction (R222), the elements it reads (all below VL where none are listed), the
registers whose elements it reads row by row, so that R223 decides their errors, the
registers whose elements it may send on while they are on their way (R173), whether it waits for all that is on its way, whether the die delays
it (R284), whether it uses the gather engine (R155), the addresses that it translates (R166), and the trap of its checks before and after the operand reads. -/
structure QGate where
  reads : List Nat := []
  writes : List Nat := []
  replaces : Bool := false
  waitMat : Bool := false
  elems : Option (List Nat) := none
  byRow : List Nat := []
  passOn : List Nat := []
  waitAll : Bool := false
  delayed : Bool := false
  gath : Bool := false
  vas : List Nat := []
  cause : Option (BitVec 8 × Nat × U64) := none
  late : State → Option (BitVec 8 × Nat × U64) := fun _ => none

/-- Whether a list of registers is free of in-flight matrix work (R222). -/
def matFree (s : State) (regs : List Nat) : Bool := !(regs.any (matRegs s.w).contains)

/-- What an entry waits for among its registers (R93): spilled ones that must be read back. -/
def QGate.refills (g : QGate) (w : Wave) : List Nat :=
  (g.reads.filter w.spilled ++ (if g.replaces then [] else g.writes.filter w.spilled)).eraseDups

/-- The segments per lane that an entry's writes allocate (R75). -/
def QGate.segs (g : QGate) (w : Wave) : Nat := if w.cfg.vl = 0 then 0 else g.writes.foldl (fun x r => x + w.grow r) 0

/-- Whether an element of a register is on its way. -/
def Wave.anyLanding (w : Wave) : Bool := w.landings.any (fun d => match d with | .elem _ _ => true | .loc _ _ => true | _ => false)

/-- Whether an entry must wait before it takes effect: for the die's grant (R284), for matrix work (R222), for elements on their way (R396, R406), for the gather engine
(R155), for a refill (R93) or for segments (R91). -/
def QGate.stalls (g : QGate) (s : State) : Bool :=
  g.delayed || (g.waitMat && !s.w.mat.isEmpty) || (g.waitAll && s.w.anyLanding) ||
    s.w.landingIn ((g.reads ++ g.writes).filter (fun r => !g.passOn.contains r)) || (g.gath && engineFull s) ||
    !matFree s (g.reads ++ g.writes) || !(g.refills s.w).isEmpty || !canAlloc s (g.segs s.w)

/-- A trap of a queue entry (R236): the entry and every later one stay queued. -/
def queueTrap (s : State) (t : BitVec 8 × Nat × U64) : State := raise s { src := 2, cause := t.1, vp := t.2.1, val := t.2.2 }

/-- The trap of an entry's reads: an element that holds an error (R253), or a released register (R85). -/
def readTrap (s : State) (g : QGate) : Option (BitVec 8 × Nat × U64) :=
  match s.w.badElem (g.reads.filter (fun r => !g.byRow.contains r)) (g.elems.getD (List.range s.w.cfg.vl)) with
  | some (i, x) => some (0x0F, i, x)
  | none =>
    (g.reads.find? (fun r => s.w.ctl.rdreltrap && decide ((s.w.reg r).st = .released))).map (fun r => ((0x08 : BitVec 8), 0, BitVec.ofNat 64 r))

/-- WSTAT.RDREL set where a released register is read (R85). -/
def readMark (s : State) (regs : List Nat) : State :=
  s.mapW (fun w => { w with ctl := { w.ctl with rdrel := w.ctl.rdrel || regs.any (fun r => decide ((w.reg r).st = .released)) } })

/-- The oldest entry leaves the queue, its bound exchanged for its exact charge (R129). -/
def popEntry (s : State) (t m : Nat) : State :=
  match s.w.vqNow with
  | [] => s
  | e :: _ => s.mapW (fun w => ((w.refund e.rsvT e.rsvS).dropEntry).deduct t m)

/-- Whether every check and wait of an entry passes, so that it acts. -/
def QGate.passes (g : QGate) (s : State) : Bool :=
  g.cause == none && !g.stalls s && (awaitWalks 1 g.vas s).isNone && readTrap s g == none && g.late s == none

/-- An entry takes effect: checks 7 to 9 of R286, the waits, checks 10 and 11, then its own effect. -/
def runEntry (g : QGate) (body : State → State) (s : State) : State :=
  match g.cause with
  | some t => queueTrap s t
  | none =>
    let s0 := if (g.refills s.w).isEmpty then makeRoom s (g.segs s.w) else s
    if g.stalls s0 then
      s0.mapW (fun w => { w with
        want := (w.want ++ g.refills w).eraseDups
        segNeed := max w.segNeed (if poolHas s0 (g.segs w) then 0 else g.segs w) })
    else
      match awaitWalks 1 g.vas s0 with
      | some t => t
      | none =>
      match readTrap s0 g with
      | some t => queueTrap s0 t
      | none =>
        match g.late s0 with
        | some t => queueTrap s0 t
        | none => body (readMark s0 g.reads)

/-- Check 7 of R286 on an entry's registers (R78): ILLOP with the entry's address. -/
def nregCheck (s : State) (e : QEntry) (regs : List Nat) : Option (BitVec 8 × Nat × U64) :=
  if regs.any (fun r => decide (s.w.cfg.nreg ≤ r)) then some (0x01, 0, e.pc) else none

/-- The charge that an entry which takes effect settles to when it has no other: one tick and one per 64 elements (R127). -/
def vlTicks (w : Wave) : Nat := 1 + ceilDiv w.cfg.vl 64

/-- A bit of a mask register. -/
def Wave.maskBit (w : Wave) (k : BitVec 3) (v : Nat) : Bool := (w.mask k).getLsbD v

end Sys2Proof.Machine
end

