-- ==== Sys2Proof/Machine/VecCfg.lean ====
section
/-! DEFINITION. Vector configuration, register negotiation, mask and element reads, VFETCH and VCATCH in the control thread, and
the seed and take queues (R36, R48, R52, R53, R62 to R73, R97, R98, R367, R376 to R378, R399, R400, R409, R412, R435, R436,
R445, R447). -/

namespace Sys2Proof.Machine

/-! ### VSETCFG and VSETVL -/

/-- VSETCFG (R435): it enters the queue. -/
def execVsetcfg (n e : BitVec 2) (b : BitVec 3) (s : State) : Out :=
  let g : Gate := { queue := true }
  issueControl (.vsetcfg n e b) g s (enqueueNext (.vsetcfg n e b) g 0 0 0)

/-- The queue segment and every queue entry discarded (R53). -/
def dropQueues (w : Wave) : Wave := { w with xq := [], qseg := .released }

/-- VSETCFG takes effect (R67, R435): every register, the queue segment and the latches go, and VL becomes 0. -/
def effVsetcfg (n e : BitVec 2) (b : BitVec 3) (s : State) : State :=
  runEntry { waitMat := true, waitAll := true } (fun s0 =>
    (endHeldAndParked (popEntry s0 1 0)).mapW (fun w =>
      let c := w.cfg
      let c1 : Vcfg := { c with nregc := n, ewc := e, blkc := b, nreg := nregOf n, share := c.quota / nregOf n, vl := 0
                                maxvl := maxvlOf w.lanes c.quota (nregOf n) (ewOf e) (blkOf b) }
      { dropQueues w with cfg := c1, vregs := [], latches := [], want := [], segNeed := 0 })) s

/-- VSETVL (R436): the request is read at issue. -/
def execVsetvl (d a : BitVec 5) (g : BitVec 1) (s : State) : Out :=
  let k : Gate := { queue := true, deps := [d, a] }
  issueControl (.vsetvl d a g) k s (fun s1 => enqueueNext (.vsetvl d a g) k (s1.w.gs a) 0 0 s1)

/-- What L1 holds after one unit leaves it: the unit's lines are invalidated (R73, R148). Which sectors those are is open (log entry 55);
with the last unit every sector goes. -/
def dropUnit (s : State) (c : Cluster) : List (Nat × BitVec 256) :=
  if c.ul1 ≤ 1 then [] else c.l1.filter (fun e => !Config.inUnit s.free (e.1 * 32 + c.ul1))

/-- L1 units moved to register extension, one at a time, until a condition holds, L1 is empty or extension has 16 units (R73,
R148). -/
def extendUntil (s : State) (die cl : Nat) (ok : State → Bool) : Nat → State
  | 0 => s
  | fuel + 1 =>
    let c := s.cluster die cl
    if ok s || c.ul1 == 0 || decide (16 ≤ c.uext) then s
    else extendUntil (s.setCluster die cl { c with ul1 := c.ul1 - 1, uext := c.uext + 1, l1 := dropUnit s c }) die cl ok fuel

/-- Whether the invariant of R71 holds on the focused wave's cluster with the focused wave's QUOTA at `q`. -/
def quotaOk (q : Nat) (s : State) : Bool :=
  progress s.myCluster.pool ((q, s.w.cfg.floor) :: s.quotas s.w.die s.w.cl s.w.id)

/-- The largest value up to a bound that a test accepts, or another value when it accepts none. -/
def largestUpTo (ok : Nat → Bool) (dflt : Nat) : Nat → Nat
  | 0 => if ok 0 then 0 else dflt
  | n + 1 => if ok (n + 1) then n + 1 else largestUpTo ok dflt n

/-- negotiate(n) (R73). DEDUCED (log entry 61): R64 has MAXVL computed at a VSETVL whose grow flag changes QUOTA, and R73, step 4, has it
recomputed at every negotiation; the model follows step 4, which differs where a REGGIVE has left MAXVL as it was. -/
def negotiate (s : State) (n : Nat) : State :=
  let w := s.w
  let ml (q : Nat) : Nat := maxvlOf w.lanes q w.cfg.nreg w.ew w.blk
  let qt := ((List.range (w.cfg.qmax + 1)).find? (fun q => decide (min n 8192 ≤ ml q))).getD w.cfg.qmax
  let s1 := extendUntil s w.die w.cl (quotaOk qt) 16
  let q := max w.cfg.quota (largestUpTo (fun q => quotaOk q s1) w.cfg.quota qt)
  s1.mapW (fun w => { w with cfg := { w.cfg with quota := q, share := q / w.cfg.nreg, maxvl := ml q } })

/-- VSETVL takes effect (R66, R436). -/
def effVsetvl (d : BitVec 5) (grow : Bool) (n : U64) (s : State) : State :=
  runEntry { waitMat := true, waitAll := true } (fun s0 =>
    let s1 := popEntry s0 1 0
    let s2 := if grow && decide (s1.w.cfg.maxvl < n.toNat) then negotiate s1 n.toNat else s1
    let vl := min n.toNat s2.w.cfg.maxvl / s2.w.blk * s2.w.blk
    (endHeldAndParked s2).mapW (fun w =>
      { (dropQueues w).ss d (BitVec.ofNat 64 vl) with
        cfg := { w.cfg with vl := vl }
        ctl := { w.ctl with short := w.ctl.short || (n != 0 && vl == 0) } })) s

/-! ### REGGIVE and REGCLAIM -/

/-- REGGIVE (R376). -/
def execReggive (n : BitVec 6) (s : State) : Out :=
  let g : Gate := { queue := true }
  issueControl (.reggive n) g s (enqueueNext (.reggive n) g 0 0 0)

/-- The team's free quota changed. -/
def setTfree (s : State) (t : Nat) : State := s.setTeam s.w.team { s.myTeam with tfree := t }

/-- REGGIVE takes effect (R97, R378): held releases of the registers given back are discarded. -/
def effReggive (n : Nat) (e : QEntry) (s : State) : State :=
  let bad := n = 0 ∨ s.w.cfg.nreg ≤ n
  runEntry { waitMat := true, cause := if bad then some (0x01, 0, e.pc) else none } (fun s0 =>
    let s1 := popEntry s0 1 0
    let c := s1.w.cfg
    let k := n * c.share
    let given := (List.range n).map (fun j => c.nreg - n + j)
    let s2 := s1.mapW (fun w =>
      { w.releaseAll given with
        runs := w.runs.map (fun r => { r with held := r.held.filter (fun v => !given.contains v) })
        cfg := { c with quota := c.quota - k, qmax := c.qmax - k, floor := min c.floor (c.quota - k), nreg := c.nreg - n } })
    setTfree s2 (s2.myTeam.tfree + k)) s

/-- Whether R98 refuses a claim of `n` registers. -/
def claimBad (w : Wave) (n : Nat) : Bool :=
  n == 0 || decide (64 < w.cfg.nreg + n) || decide (256 < w.cfg.qmax + n * w.cfg.share)

/-- The count of a wave's claim that stands at the head of its queue, if one does. -/
def Wave.claim? (w : Wave) : Option Nat :=
  match w.vqNow with
  | e :: _ => if opOf e.word = 0x44 then some (bits e.word.toNat 18 6) else none
  | [] => none

/-- Whether the focused wave is blocked in REGCLAIM: its claim is the oldest entry, passes the checks and waits for no earlier
work (R98, R99). -/
def claimBlocked (s : State) : Bool :=
  queueMoves s && s.w.fetchesNow.isEmpty && s.w.mat.isEmpty &&
    (match s.w.claim? with | some n => !claimBad s.w n | none => false)

/-- The waves of the focused wave's team that have not exited, each as it stands focused. -/
def teamViews (s : State) : List State :=
  (s.waves.filter (fun w => w.team == s.w.team && !w.isGone)).map (fun w => s.focus w.id)

/-- Whether no older claim of the team is pending (R98). -/
def claimTurn (s : State) : Bool :=
  (teamViews s).all (fun v => v.w.id == s.w.id || !claimBlocked v || decide (s.w.stamp < v.w.stamp))

/-- Whether the focused wave's claim of `n` registers can be granted now (R98). -/
def claimFits (s : State) (n : Nat) : Bool :=
  decide (n * s.w.cfg.share ≤ s.myTeam.tfree) && quotaOk (s.w.cfg.quota + n * s.w.cfg.share) s && claimTurn s

/-- A claim granted (R98, R377): NREG and QUOTA grow, SHARE and MAXVL stay, and a control thread that waits for it goes on. -/
def grantClaim (s : State) (n : Nat) : State :=
  let s1 := popEntry s 1 0
  let k := n * s1.w.cfg.share
  let s2 := s1.mapW (fun w =>
    let w1 : Wave := { w with cfg := { w.cfg with quota := w.cfg.quota + k, qmax := w.cfg.qmax + k, nreg := w.cfg.nreg + n } }
    match w.wait with
    | some (.issued (.regclaim _) p) => { w1 with pc := if p = 0 then w.pc + 4 else w.pc, wait := none }
    | _ => w1)
  setTfree s2 (s2.myTeam.tfree - k)

/-- The control thread past its REGCLAIM, which traps and stays queued: EPC names the instruction after it (R99, R236, R237). -/
def pastClaim (s : State) : State :=
  s.mapW (fun w =>
    match w.wait with
    | some (.issued (.regclaim _) p) => { w with pc := if p = 0 then w.pc + 4 else w.pc, wait := none }
    | _ => w)

/-- REGCLAIM takes effect, or blocks its wave until it can (R98). -/
def effRegclaim (n : Nat) (e : QEntry) (s : State) : State :=
  let s1 := if claimBad s.w n then pastClaim s else s
  runEntry { waitMat := true, cause := if claimBad s.w n then some (0x01, 0, e.pc) else none } (fun s0 =>
    if claimFits s0 n then grantClaim s0 n
    else s0.mapW (fun w => { w with wait := if w.wait = none then some (.issued (.regclaim (BitVec.ofNat 6 n)) 1) else w.wait })) s1

/-- REGCLAIM (R377): it enters the queue, and the control thread issues nothing further until the claim is granted. A control
thread that waits here looks whether its claim can be granted. -/
def execRegclaim (n : BitVec 6) (s : State) : Out :=
  let g : Gate := { queue := true }
  issueControl (.regclaim n) g s (fun s1 =>
    match s1.w.phase with
    | some _ => if claimBlocked s1 && claimFits s1 n.toNat then .next (grantClaim s1 n.toNat) else .next s1
    | none =>
      .next (waiting (.regclaim n) 0 (enqueue s1
        { word := wordOf (.regclaim n), pc := s1.w.pc, rsvT := if s1.w.trp.inh then 0 else 1 })))

/-! ### VELECT, VBALLOT, MOP -/

/-- What VELECT, VBALLOT and MOP ask at issue: ALL or VECTOR, 1 + ⌈MAXVL/64⌉ ticks checked (R127, R128, R210). -/
def maskGate (d : BitVec 5) (s : State) : Gate :=
  { roles := [0, 3], queue := true, deps := [d], ticks := 1 + ceilDiv s.w.cfg.maxvl 64 }

/-- The lowest bit of a list of indices that a mask register has set, below VL. -/
def Wave.lowest (w : Wave) (k : BitVec 3) : Option Nat := (List.range w.cfg.vl).find? (w.maskBit k)

/-- VELECT (R409). -/
def execVelect (d : BitVec 5) (k : BitVec 3) (v : BitVec 6) (s : State) : Out :=
  issueControl (.velect d k v) (maskGate d s) s (enqueueNext (.velect d k v) (maskGate d s) 0 0 0)

/-- VELECT.idx (R409). -/
def execVelectIdx (d : BitVec 5) (k : BitVec 3) (s : State) : Out :=
  issueControl (.velectIdx d k) (maskGate d s) s (enqueueNext (.velectIdx d k) (maskGate d s) 0 0 0)

/-- VELECT takes effect (R409, R410): the value of the lowest selected element, or 0 with none. -/
def effVelect (d : BitVec 5) (k : BitVec 3) (v : Nat) (e : QEntry) (s : State) : State :=
  let j := s.w.lowest k
  runEntry { cause := nregCheck s e [v], reads := if j.isSome then [v] else [], elems := some j.toList } (fun s0 =>
    setS (popEntry s0 (vlTicks s0.w) 0) d (match j with | none => 0 | some i => (s0.w.reg v).elem i)) s

/-- VELECT.idx takes effect (R409): the index of the lowest selected element, or all ones. -/
def effVelectIdx (d : BitVec 5) (k : BitVec 3) (s : State) : State :=
  runEntry {} (fun s0 =>
    setS (popEntry s0 (vlTicks s0.w) 0) d (match s0.w.lowest k with | none => BitVec.allOnes 64 | some i => BitVec.ofNat 64 i)) s

/-- VBALLOT (R399). -/
def execVballot (d : BitVec 5) (k : BitVec 3) (w : BitVec 7) (s : State) : Out :=
  issueControl (.vballot d k w) (maskGate d s) s (enqueueNext (.vballot d k w) (maskGate d s) 0 0 0)

/-- VBALLOT takes effect (R399): 64 bits of a mask register, those at VL and above 0. -/
def effVballot (d : BitVec 5) (k : BitVec 3) (j : Nat) (s : State) : State :=
  runEntry {} (fun s0 =>
    let m := (s0.w.mask k).toNat % 2 ^ s0.w.cfg.vl
    setS (popEntry s0 (vlTicks s0.w) 0) d (BitVec.ofNat 64 (bits m (64 * j) 64))) s

/-- MOP (R367). -/
def execMop (d a b : BitVec 3) (f : BitVec 3) (sd : BitVec 5) (s : State) : Out :=
  issueControl (.mop d a b f sd) (maskGate sd s) s (enqueueNext (.mop d a b f sd) (maskGate sd s) 0 0 0)

/-- MOP's function over whole masks (R367); bits at VL and above are cut afterwards. -/
def mopFn (f : BitVec 3) (a b : BitVec 8192) : BitVec 8192 :=
  match f.toNat with
  | 0 => a &&& b
  | 1 => a ||| b
  | 2 => a ^^^ b
  | 3 => a &&& ~~~b
  | 4 => ~~~a
  | 5 => a
  | 6 => BitVec.allOnes 8192
  | _ => a &&& -a

/-- The number of ones among the lowest `n` bits of a mask. -/
def maskCount (x : BitVec 8192) (n : Nat) : Nat := (List.range n).foldl (fun c k => c + bits x.toNat k 1) 0

/-- The bits of a mask below a length. -/
def maskBelow (x : BitVec 8192) (n : Nat) : BitVec 8192 := x &&& BitVec.ofNat 8192 (2 ^ n - 1)

/-- MOP takes effect (R367). -/
def effMop (d a b : BitVec 3) (f : BitVec 3) (sd : BitVec 5) (s : State) : State :=
  runEntry {} (fun s0 =>
    let n := s0.w.cfg.vl
    let r := maskBelow (mopFn f (maskBelow (s0.w.mask a) n) (maskBelow (s0.w.mask b) n)) n
    setS ((popEntry s0 (vlTicks s0.w) 0).mapW (fun w => w.setMask d r)) sd (BitVec.ofNat 64 (maskCount r n))) s

/-! ### VFETCH and VCATCH -/

/-- The words of the block at an address, as read now: none where the read faults or no block is named (R128). -/
def blockWords (s : State) (t : U64) : Option (BitVec 32 × List (BitVec 32)) :=
  match checkHeader s t with
  | .error _ => none
  | .ok h =>
    match fetchWords s (t + 4) (hdrLen h) with
    | .error _ => none
    | .ok ws => some (h, ws)

/-- The words of the block at an address for its reservation (R128): none only where the read faults, the address breaks R30, or the
word is no ABEGIN; bits [9:0] of the header are not looked at. -/
def reservedWords (s : State) (t : U64) : Option (List (BitVec 32)) :=
  if bits t.toNat 0 2 != 0 then none
  else
    match fetchWord s t with
    | .error _ => none
    | .ok h =>
      if bits h.toNat 24 8 != 0x47 then none
      else
        match fetchWords s (t + 4) (hdrLen h) with
        | .error _ => none
        | .ok ws => some ws

/-- The reservation of a block for `n` VPs as read now; 0 where it cannot be read (R128). -/
def blockRsv (s : State) (t : U64) (n : Nat) : Nat × Nat :=
  match reservedWords s t with
  | none => (0, 0)
  | some ws => reservation ws n

/-- What VFETCH asks at issue (R412): 1 tick and the block's reservation, computed from its words, which it waits for. -/
def vfetchGate (t : U64) (deps : List (BitVec 5)) (s : State) : Gate :=
  let r := blockRsv s t s.w.cfg.maxvl
  { roles := [0, 3], queue := true, deps := deps, ticks := 1 + r.1, sectors := r.2
    await := fun x => if deps.any x.w.outstanding then none else awaitBlock 0 none t x }

/-- VFETCH of an offset (R412). -/
def execVfetch (m : BitVec 1) (o : BitVec 22) (s : State) : Out :=
  let t := branchTo s.w.pc (o.signExtend 64)
  issueControl (.vfetch m o) (vfetchGate t [] s) s (enqueueNext (.vfetch m o) (vfetchGate t [] s) t 0 0)

/-- VFETCH of a register (R412). -/
def execVfetchReg (m : BitVec 1) (a : BitVec 5) (s : State) : Out :=
  let t := s.w.gs a
  issueControl (.vfetchReg m a) (vfetchGate t [a] s) s (enqueueNext (.vfetchReg m a) (vfetchGate t [a] s) t 0 0)

/-- Whether VCATCH may complete (R48): no earlier entry is left and the wave is quiescent. -/
def catchReady (w : Wave) : Bool := w.vqNow.isEmpty && w.fetchesNow.isEmpty && w.quiescent && w.traps.all (fun t => t.src == 3)

/-- The distinct catch addresses of the parked VPs. -/
def Wave.parkedAddrs (w : Wave) : List U64 :=
  (w.vps.filterMap (fun e => match e.2 with | .parked a => some a | _ => none)).eraseDups

/-- VCATCH completes (R48, R400): the count of parked VPs, and a fetch per distinct catch address ahead of the queue. -/
def catchDo (d : BitVec 5) (s : State) : State :=
  let n := (s.w.vps.filter (fun e => match e.2 with | .parked _ => true | _ => false)).length
  advance (setS (s.mapW (fun w => { w with
    fetches := w.parkedAddrs.foldl (fun l a => addFetch l { addr := a, resent := false }) w.fetches
    vps := w.vps.map (fun e => match e.2 with | .parked a => (e.1, .caught a) | _ => e) })) d (BitVec.ofNat 64 n))

/-- VCATCH (R400). -/
def execVcatch (d : BitVec 5) (s : State) : Out :=
  issueControl (.vcatch d) { roles := [0, 3], noHandler := true, deps := [d] } s (fun s1 =>
    if catchReady s1.w then .next (catchDo d s1) else .next (waiting (.vcatch d) 0 s1))

/-! ### VXSEED and VXTAKE -/

/-- Room made for the queue segment where VXSEED allocates it (R53, R95). -/
def seedRoom (s : State) : State := if s.w.qseg = .released then makeRoom s 1 else s

/-- VXSEED (R445): after every earlier queue entry, and while the seed boundary has room. -/
def execVxseed (a : BitVec 5) (s : State) : Out :=
  issueControl (.vxseed a) { roles := [0, 3], noHandler := true, deps := [a] } s (fun s1 =>
    if !s1.w.vqNow.isEmpty || !s1.w.fetchesNow.isEmpty || decide (4 ≤ (s1.w.boundary seedBnd).length) then .next (waiting (.vxseed a) 0 s1)
    else if s1.w.qseg = .spilled then .next (waiting (.vxseed a) 0 (s1.mapW (fun w => { w with want := (w.want ++ [64]).eraseDups })))
    else if s1.w.qseg = .released && !canAlloc (seedRoom s1) 1 then
      .next (waiting (.vxseed a) 0 ((seedRoom s1).mapW (fun w => { w with segNeed := max w.segNeed (if poolHas (seedRoom s1) 1 then 0 else 1) })))
    else .next (advance (pushX (allocQseg (seedRoom s1)) { bnd := seedBnd, vp := 0, val := s1.w.gs a })))

/-- The take queue without its oldest entry (R52). -/
def popTake (s : State) : State :=
  s.mapW (fun w => { w with xq := dropFirst (fun e => e.bnd == takeBnd) w.xq, qage := s.free })

/-- VXTAKE (R447). -/
def execVxtake (d : BitVec 5) (s : State) : Out :=
  issueControl (.vxtake d) { roles := [0, 3], noHandler := true, deps := [d] } s (fun s1 =>
    if s1.w.qseg = .spilled then .next (waiting (.vxtake d) 0 (s1.mapW (fun w => { w with want := (w.want ++ [64]).eraseDups })))
    else
      match s1.w.boundary takeBnd with
      | [] => .next (waiting (.vxtake d) 0 s1)
      | e :: _ => .next (advance (setS (popTake s1) d e.val)))

end Sys2Proof.Machine
end

