-- ==== Sys2Proof/Machine/Blocks.lean ====
section
/-! DEFINITION. The block-class instructions: THFETCH, VPSTOP, the element-wise arithmetic of every format, compares, conversions,
the cross-element instructions, VXSEND, VSPAWN's issue and REPF (R40, R52, R103 to R124, R250, R305 to R308, R341, R342, R380,
R388 to R394, R398, R401 to R404, R411, R414, R416, R419 to R432, R434, R437 to R441, R443, R444, R446). -/

namespace Sys2Proof.Machine

/-! ### Element-wise forms -/

/-- A two-source integer form (R392): `f` on the elements at width EW; no flag. -/
def vInt (i : Instr) (m : BitVec 1) (d : BitVec 6) (ws : BitVec 1) (a b : BitVec 8) (f : Nat → Nat → Nat → Nat) (s : State) : Out :=
  elementwise i m d ws [a, b] false none (fun w v => (f w.ew (w.operand a v) (w.operand b v), 0)) s

/-- An immediate integer form (R289, R392). -/
def vImm (i : Instr) (m : BitVec 1) (d : BitVec 6) (ws : BitVec 1) (a im : BitVec 8) (f : Nat → Nat → Nat → Nat) (s : State) : Out :=
  elementwise i m d ws [a] false none (fun w v => (f w.ew (w.operand a v) (w.imm im), 0)) s

/-- A two-source floating form of a format, rounded by FRM (R392). -/
def vFlt (i : Instr) (m : BitVec 1) (d : BitVec 6) (ws : BitVec 1) (a b : BitVec 8) (t : Fmt)
    (f : Fmt → RMode → Nat → Nat → Nat × BitVec 5) (s : State) : Out :=
  elementwise i m d ws [a, b] false (some t.width) (fun w v => f t w.cfg.frm (w.operand a v) (w.operand b v)) s

/-- A fused form of a format (R414): vd is the addend, and `neg` subtracts the product. -/
def vFma (i : Instr) (m : BitVec 1) (d : BitVec 6) (ws : BitVec 1) (a b : BitVec 8) (t : Fmt) (neg : Bool) (s : State) : Out :=
  elementwise i m d ws [a, b] true (some t.width) (fun w v =>
    let x := w.operand a v
    ffma t w.cfg.frm (if neg then fneg t x else x) (w.operand b v) ((w.reg d.toNat).elem v).toNat) s

/-- A one-source FP32 form. -/
def vUn (i : Instr) (m : BitVec 1) (d : BitVec 6) (ws : BitVec 1) (a : BitVec 8) (f : RMode → Nat → Nat × BitVec 5) (s : State) : Out :=
  elementwise i m d ws [a] false (some 32) (fun w v => f w.cfg.frm (w.operand a v)) s

/-- The integer minimum or maximum of two elements (R420, R421). -/
def pick (sgn hi : Bool) (n a b : Nat) : Nat :=
  let lt := if sgn then decide (sval n a < sval n b) else decide (a < b)
  if lt != hi then a else b

/-- VADD.I (R393). -/
def execVaddI (m : BitVec 1) (d : BitVec 6) (ws : BitVec 1) (a b : BitVec 8) (s : State) : Out :=
  vInt (.vaddI m d ws a b) m d ws a b (fun n a b => (a + b) % 2 ^ n) s

/-- VSUB.I (R443). -/
def execVsubI (m : BitVec 1) (d : BitVec 6) (ws : BitVec 1) (a b : BitVec 8) (s : State) : Out :=
  vInt (.vsubI m d ws a b) m d ws a b (fun n a b => (a + 2 ^ n - b) % 2 ^ n) s

/-- VMUL.I (R423). -/
def execVmulI (m : BitVec 1) (d : BitVec 6) (ws : BitVec 1) (a b : BitVec 8) (s : State) : Out :=
  vInt (.vmulI m d ws a b) m d ws a b (fun n a b => a * b % 2 ^ n) s

/-- VMAC.I (R419). -/
def execVmacI (m : BitVec 1) (d : BitVec 6) (ws : BitVec 1) (a b : BitVec 8) (s : State) : Out :=
  elementwise (.vmacI m d ws a b) m d ws [a, b] true none (fun w v =>
    ((((w.reg d.toNat).elem v).toNat + w.operand a v * w.operand b v) % 2 ^ w.ew, 0)) s

/-- VMIN.I (R421). -/
def execVminI (m : BitVec 1) (d : BitVec 6) (ws : BitVec 1) (a b : BitVec 8) (s : State) : Out :=
  vInt (.vminI m d ws a b) m d ws a b (pick false false) s

/-- VMIN.IS (R421). -/
def execVminIs (m : BitVec 1) (d : BitVec 6) (ws : BitVec 1) (a b : BitVec 8) (s : State) : Out :=
  vInt (.vminIs m d ws a b) m d ws a b (pick true false) s

/-- VMAX.I (R420). -/
def execVmaxI (m : BitVec 1) (d : BitVec 6) (ws : BitVec 1) (a b : BitVec 8) (s : State) : Out :=
  vInt (.vmaxI m d ws a b) m d ws a b (pick false true) s

/-- VMAX.IS (R420). -/
def execVmaxIs (m : BitVec 1) (d : BitVec 6) (ws : BitVec 1) (a b : BitVec 8) (s : State) : Out :=
  vInt (.vmaxIs m d ws a b) m d ws a b (pick true true) s

/-- VAND (R398). -/
def execVand (m : BitVec 1) (d : BitVec 6) (ws : BitVec 1) (a b : BitVec 8) (s : State) : Out :=
  vInt (.vand m d ws a b) m d ws a b (fun _ a b => a &&& b) s

/-- VOR (R426). -/
def execVor (m : BitVec 1) (d : BitVec 6) (ws : BitVec 1) (a b : BitVec 8) (s : State) : Out :=
  vInt (.vor m d ws a b) m d ws a b (fun _ a b => a ||| b) s

/-- VXOR (R444). -/
def execVxor (m : BitVec 1) (d : BitVec 6) (ws : BitVec 1) (a b : BitVec 8) (s : State) : Out :=
  vInt (.vxor m d ws a b) m d ws a b (fun _ a b => a ^^^ b) s

/-- VSHL (R437). -/
def execVshl (m : BitVec 1) (d : BitVec 6) (ws : BitVec 1) (a b : BitVec 8) (s : State) : Out :=
  vInt (.vshl m d ws a b) m d ws a b (fun n a b => a * 2 ^ (b % n) % 2 ^ n) s

/-- VSHR (R438). -/
def execVshr (m : BitVec 1) (d : BitVec 6) (ws : BitVec 1) (a b : BitVec 8) (s : State) : Out :=
  vInt (.vshr m d ws a b) m d ws a b (fun n a b => a / 2 ^ (b % n)) s

/-- VSHR.A (R438). -/
def execVshrA (m : BitVec 1) (d : BitVec 6) (ws : BitVec 1) (a b : BitVec 8) (s : State) : Out :=
  vInt (.vshrA m d ws a b) m d ws a b (sarInt) s

/-- VADDI.I (R393). -/
def execVaddiI (m : BitVec 1) (d : BitVec 6) (ws : BitVec 1) (a im : BitVec 8) (s : State) : Out :=
  vImm (.vaddiI m d ws a im) m d ws a im (fun n a b => (a + b) % 2 ^ n) s

/-- VANDI (R398). -/
def execVandi (m : BitVec 1) (d : BitVec 6) (ws : BitVec 1) (a im : BitVec 8) (s : State) : Out :=
  vImm (.vandi m d ws a im) m d ws a im (fun _ a b => a &&& b) s

/-- VSHLI (R437). -/
def execVshli (m : BitVec 1) (d : BitVec 6) (ws : BitVec 1) (a im : BitVec 8) (s : State) : Out :=
  vImm (.vshli m d ws a im) m d ws a im (fun n a b => a * 2 ^ (b % n) % 2 ^ n) s

/-- VSHRI (R438). -/
def execVshri (m : BitVec 1) (d : BitVec 6) (ws : BitVec 1) (a im : BitVec 8) (s : State) : Out :=
  vImm (.vshri m d ws a im) m d ws a im (fun n a b => a / 2 ^ (b % n)) s

/-- VSHRI.A (R438). -/
def execVshriA (m : BitVec 1) (d : BitVec 6) (ws : BitVec 1) (a im : BitVec 8) (s : State) : Out :=
  vImm (.vshriA m d ws a im) m d ws a im (sarInt) s

/-- VMOVI (R422). -/
def execVmovi (m : BitVec 1) (d : BitVec 6) (ws : BitVec 1) (im : BitVec 8) (s : State) : Out :=
  elementwise (.vmovi m d ws im) m d ws [] false none (fun w _ => (w.imm im, 0)) s

/-- VMOV (R422). -/
def execVmov (m : BitVec 1) (d : BitVec 6) (ws : BitVec 1) (a : BitVec 8) (s : State) : Out :=
  elementwise (.vmov m d ws a) m d ws [a] false none (fun w v => (w.operand a v, 0)) s

/-- VIOTA (R416). -/
def execViota (m : BitVec 1) (d : BitVec 6) (ws : BitVec 1) (s : State) : Out :=
  elementwise (.viota m d ws) m d ws [] false none (fun w v => (v % 2 ^ w.ew, 0)) s

/-- VSEL (R434): bit i of m0 selects. -/
def execVsel (d : BitVec 6) (ws : BitVec 1) (a b : BitVec 8) (s : State) : Out :=
  elementwise (.vsel d ws a b) 0 d ws [a, b] false none (fun w v =>
    (if (w.mask 0).getLsbD v then w.operand a v else w.operand b v, 0)) s

/-- VADD.F32 (R393). -/
def execVaddF32 (m : BitVec 1) (d : BitVec 6) (ws : BitVec 1) (a b : BitVec 8) (s : State) : Out :=
  vFlt (.vaddF32 m d ws a b) m d ws a b .f32 fadd s

/-- VSUB.F32 (R443). -/
def execVsubF32 (m : BitVec 1) (d : BitVec 6) (ws : BitVec 1) (a b : BitVec 8) (s : State) : Out :=
  vFlt (.vsubF32 m d ws a b) m d ws a b .f32 fsub s

/-- VMUL.F32 (R423). -/
def execVmulF32 (m : BitVec 1) (d : BitVec 6) (ws : BitVec 1) (a b : BitVec 8) (s : State) : Out :=
  vFlt (.vmulF32 m d ws a b) m d ws a b .f32 fmul s

/-- VFMA.F32 (R414). -/
def execVfmaF32 (m : BitVec 1) (d : BitVec 6) (ws : BitVec 1) (a b : BitVec 8) (s : State) : Out :=
  vFma (.vfmaF32 m d ws a b) m d ws a b .f32 false s

/-- VFMS.F32 (R414). -/
def execVfmsF32 (m : BitVec 1) (d : BitVec 6) (ws : BitVec 1) (a b : BitVec 8) (s : State) : Out :=
  vFma (.vfmsF32 m d ws a b) m d ws a b .f32 true s

/-- VDIV.F32 (R404). -/
def execVdivF32 (m : BitVec 1) (d : BitVec 6) (ws : BitVec 1) (a b : BitVec 8) (s : State) : Out :=
  vFlt (.vdivF32 m d ws a b) m d ws a b .f32 fdiv s

/-- VMIN.F32 (R421). -/
def execVminF32 (m : BitVec 1) (d : BitVec 6) (ws : BitVec 1) (a b : BitVec 8) (s : State) : Out :=
  vFlt (.vminF32 m d ws a b) m d ws a b .f32 (fun t _ => fminmax t false) s

/-- VMAX.F32 (R420). -/
def execVmaxF32 (m : BitVec 1) (d : BitVec 6) (ws : BitVec 1) (a b : BitVec 8) (s : State) : Out :=
  vFlt (.vmaxF32 m d ws a b) m d ws a b .f32 (fun t _ => fminmax t true) s

/-- VADD.F16 (R393). -/
def execVaddF16 (m : BitVec 1) (d : BitVec 6) (ws : BitVec 1) (a b : BitVec 8) (s : State) : Out :=
  vFlt (.vaddF16 m d ws a b) m d ws a b .f16 fadd s

/-- VSUB.F16 (R443). -/
def execVsubF16 (m : BitVec 1) (d : BitVec 6) (ws : BitVec 1) (a b : BitVec 8) (s : State) : Out :=
  vFlt (.vsubF16 m d ws a b) m d ws a b .f16 fsub s

/-- VMUL.F16 (R423). -/
def execVmulF16 (m : BitVec 1) (d : BitVec 6) (ws : BitVec 1) (a b : BitVec 8) (s : State) : Out :=
  vFlt (.vmulF16 m d ws a b) m d ws a b .f16 fmul s

/-- VFMA.F16 (R414). -/
def execVfmaF16 (m : BitVec 1) (d : BitVec 6) (ws : BitVec 1) (a b : BitVec 8) (s : State) : Out :=
  vFma (.vfmaF16 m d ws a b) m d ws a b .f16 false s

/-- VMIN.F16 (R421). -/
def execVminF16 (m : BitVec 1) (d : BitVec 6) (ws : BitVec 1) (a b : BitVec 8) (s : State) : Out :=
  vFlt (.vminF16 m d ws a b) m d ws a b .f16 (fun t _ => fminmax t false) s

/-- VMAX.F16 (R420). -/
def execVmaxF16 (m : BitVec 1) (d : BitVec 6) (ws : BitVec 1) (a b : BitVec 8) (s : State) : Out :=
  vFlt (.vmaxF16 m d ws a b) m d ws a b .f16 (fun t _ => fminmax t true) s

/-- VADD.E8M7 (R393). -/
def execVaddE8m7 (m : BitVec 1) (d : BitVec 6) (ws : BitVec 1) (a b : BitVec 8) (s : State) : Out :=
  vFlt (.vaddE8m7 m d ws a b) m d ws a b .e8m7 fadd s

/-- VSUB.E8M7 (R443). -/
def execVsubE8m7 (m : BitVec 1) (d : BitVec 6) (ws : BitVec 1) (a b : BitVec 8) (s : State) : Out :=
  vFlt (.vsubE8m7 m d ws a b) m d ws a b .e8m7 fsub s

/-- VMUL.E8M7 (R423). -/
def execVmulE8m7 (m : BitVec 1) (d : BitVec 6) (ws : BitVec 1) (a b : BitVec 8) (s : State) : Out :=
  vFlt (.vmulE8m7 m d ws a b) m d ws a b .e8m7 fmul s

/-- VFMA.E8M7 (R414). -/
def execVfmaE8m7 (m : BitVec 1) (d : BitVec 6) (ws : BitVec 1) (a b : BitVec 8) (s : State) : Out :=
  vFma (.vfmaE8m7 m d ws a b) m d ws a b .e8m7 false s

/-- VMIN.E8M7 (R421). -/
def execVminE8m7 (m : BitVec 1) (d : BitVec 6) (ws : BitVec 1) (a b : BitVec 8) (s : State) : Out :=
  vFlt (.vminE8m7 m d ws a b) m d ws a b .e8m7 (fun t _ => fminmax t false) s

/-- VMAX.E8M7 (R420). -/
def execVmaxE8m7 (m : BitVec 1) (d : BitVec 6) (ws : BitVec 1) (a b : BitVec 8) (s : State) : Out :=
  vFlt (.vmaxE8m7 m d ws a b) m d ws a b .e8m7 (fun t _ => fminmax t true) s

/-- VSQRT.F32 (R441). -/
def execVsqrtF32 (m : BitVec 1) (d : BitVec 6) (ws : BitVec 1) (a : BitVec 8) (s : State) : Out :=
  vUn (.vsqrtF32 m d ws a) m d ws a (fun md => fsqrt .f32 md) s

/-- VEXP2 (R411). -/
def execVexp2 (m : BitVec 1) (d : BitVec 6) (ws : BitVec 1) (a : BitVec 8) (s : State) : Out :=
  vUn (.vexp2 m d ws a) m d ws a (fun _ => fexp2) s

/-- VRCP (R429). -/
def execVrcp (m : BitVec 1) (d : BitVec 6) (ws : BitVec 1) (a : BitVec 8) (s : State) : Out :=
  vUn (.vrcp m d ws a) m d ws a (fun _ => frcp) s

/-- VADDC (R124, R394): the rounded sum to vd and its exact error to vd + 1; both enter the latches, the sum first. -/
def execVaddc (m : BitVec 1) (d : BitVec 6) (ws : BitVec 1) (a b : BitVec 8) (s : State) : Out :=
  issueBlock (.vaddc m d ws a b) (fun s _ =>
    let g := vGate m d ws [a, b] false (some 32) s
    { g with writes := if ws = 0 then [d.toNat, d.toNat + 1] else [], bad7 := g.bad7 || (ws == 0 && d.toNat % 2 == 1) }) s (fun x s1 =>
    let l := (activeVps s1.w m x.vps).map (fun v => (v, faddc (s1.w.operand a v) (s1.w.operand b v)))
    let s2 := putResults s1 d ws (l.map (fun e => (e.1, e.2.1, e.2.2.2)))
    let d1 : BitVec 6 := d + 1
    putResults s2 d1 ws (l.map (fun e => (e.1, e.2.2.1, 0))))

/-- VCVT (R117, R403): a format wider than EW raises ILLFMT. -/
def execVcvt (m : BitVec 1) (d : BitVec 6) (ws : BitVec 1) (a : BitVec 8) (t c : BitVec 4) (s : State) : Out :=
  issueBlock (.vcvt m d ws a t c) (fun s _ =>
    { vGate m d ws [a] false none s with
      bad9 := decide (s.w.ew < (convFmt t).width) || decide (s.w.ew < (convFmt c).width) }) s (fun x s1 =>
    putResults s1 d ws (results s1.w m x.vps (fun v => convert s1.w.ew s1.w.cfg.frm (convFmt t) (convFmt c) (s1.w.operand a v))))

/-! ### Compares -/

/-- VCMP.I (R401). -/
def execVcmpI (m : BitVec 1) (md c : BitVec 3) (a b : BitVec 8) (s : State) : Out :=
  compareInto (.vcmpI m md c a b) m md [a, b] none (fun w v => (icmp w.ew c (w.operand a v) (w.operand b v), 0)) s

/-- VCMPI.I (R401). -/
def execVcmpiI (m : BitVec 1) (md c : BitVec 3) (a im : BitVec 8) (s : State) : Out :=
  compareInto (.vcmpiI m md c a im) m md [a] none (fun w v => (icmp w.ew c (w.operand a v) (w.imm im), 0)) s

/-- VCMP.F32 (R107, R401). -/
def execVcmpF32 (m : BitVec 1) (md c : BitVec 3) (a b : BitVec 8) (s : State) : Out :=
  compareInto (.vcmpF32 m md c a b) m md [a, b] (some (Fmt.width .f32)) (fun w v => fcmp .f32 c (w.operand a v) (w.operand b v)) s

/-- VCMP.F16 (R107, R401). -/
def execVcmpF16 (m : BitVec 1) (md c : BitVec 3) (a b : BitVec 8) (s : State) : Out :=
  compareInto (.vcmpF16 m md c a b) m md [a, b] (some (Fmt.width .f16)) (fun w v => fcmp .f16 c (w.operand a v) (w.operand b v)) s

/-- VCMP.E8M7 (R107, R401). -/
def execVcmpE8m7 (m : BitVec 1) (md c : BitVec 3) (a b : BitVec 8) (s : State) : Out :=
  compareInto (.vcmpE8m7 m md c a b) m md [a, b] (some (Fmt.width .e8m7)) (fun w v => fcmp .e8m7 c (w.operand a v) (w.operand b v)) s

/-! ### Cross-element instructions (R40) -/

/-- What a cross-element instruction asks: the elementwise gate, and every VP of the block at the word. -/
def xGate (m : BitVec 1) (d : BitVec 6) (ws : BitVec 1) (srcs : List (BitVec 8)) (bad9 : Bool) (s : State) : BGate :=
  { vGate m d ws srcs false none s with cross := true, bad9 := bad9 }

/-- A VP put in its place in an ascending list. -/
def insertAscending (v : Nat) : List Nat → List Nat
  | [] => [v]
  | u :: t => if v ≤ u then v :: u :: t else u :: insertAscending v t

/-- The executing VPs in ascending element order. -/
def ascending : List Nat → List Nat
  | [] => []
  | v :: t => insertAscending v (ascending t)

/-- VPERM (R427). -/
def execVperm (m : BitVec 1) (d : BitVec 6) (ws : BitVec 1) (a b : BitVec 8) (s : State) : Out :=
  issueBlock (.vperm m d ws a b) (fun s _ => { xGate m d ws [a, b] false s with readAll := true }) s (fun x s1 =>
    putResults s1 d ws (results s1.w m x.vps (fun v =>
      let j := s1.w.operand b v
      (if j < s1.w.cfg.vl ∧ x.vps.contains j then s1.w.operand a j else 0, 0))))

/-- Values placed in the first executing VPs, zero in the others (R402, R424). -/
def packFirst (vps : List Nat) (ys : List Nat) : List (Nat × Nat × BitVec 5) :=
  (List.range vps.length).map (fun j => (vps.getD j 0, ys.getD j 0, 0))

/-- VCOMPRESS (R402). -/
def execVcompress (m : BitVec 1) (d : BitVec 6) (a : BitVec 8) (s : State) : Out :=
  issueBlock (.vcompress m d a) (fun s _ => { xGate m d 0 [a] false s with writeAll := true }) s (fun x s1 =>
    let e := ascending x.vps
    putResults s1 d 0 (packFirst e ((activeVps s1.w m e).map (s1.w.operand a))))

/-- Whether VNZSCAN counts an element (R424). -/
def isNonzero (f : BitVec 1) (ew x : Nat) : Bool := if f = 0 then x != 0 else x % 2 ^ (ew - 1) != 0

/-- VNZSCAN (R424): EW = 8 raises ILLFMT. -/
def execVnzscan (m : BitVec 1) (d : BitVec 6) (a : BitVec 8) (f : BitVec 1) (s : State) : Out :=
  issueBlock (.vnzscan m d a f) (fun s _ => { xGate m d 0 [a] (s.w.ew == 8) s with writeAll := true }) s (fun x s1 =>
    let e := ascending x.vps
    let ys := (activeVps s1.w m e).filter (fun v => isNonzero f s1.w.ew (s1.w.operand a v))
    (putResults s1 d 0 (packFirst e ys)).mapW (fun w => { w with cfg := { w.cfg with nzcnt := BitVec.ofNat 14 ys.length } }))

/-- The width that a reduction code asks of EW, if it asks one (R431). -/
def redWidth (c : Nat) : Option Nat :=
  if c = 8 ∨ c = 11 ∨ c = 12 then some 32 else if 9 ≤ c ∧ c ≤ 14 then some 16 else none

/-- The node operation of a reduction code (R431). -/
def redOp (n c x y : Nat) : Nat × BitVec 5 :=
  match c with
  | 0 => ((x + y) % 2 ^ n, 0)
  | 1 => (pick false false n x y, 0)
  | 2 => (pick true false n x y, 0)
  | 3 => (pick false true n x y, 0)
  | 4 => (pick true true n x y, 0)
  | 5 => (x &&& y, 0)
  | 6 => (x ||| y, 0)
  | 7 => (x ^^^ y, 0)
  | 8 => fadd .f32 rne x y
  | 9 => fadd .f16 rne x y
  | 10 => fadd .e8m7 rne x y
  | 11 => fminmax .f32 false x y
  | 12 => fminmax .f32 true x y
  | 13 => fminmax .f16 false x y
  | _ => fminmax .f16 true x y

/-- The format of a floating reduction code. -/
def redFmt (c : Nat) : Option Fmt :=
  match c with
  | 8 => some .f32
  | 9 => some .f16
  | 10 => some .e8m7
  | 11 => some .f32
  | 12 => some .f32
  | 13 => some .f16
  | 14 => some .f16
  | _ => none

/-- A single operand as a reduction delivers it: a NaN is the canonical one, with NV for a signalling one, and a subnormal that the
format flushes is a zero (R106, R114). -/
def redOne (c x : Nat) : Nat × BitVec 5 :=
  match redFmt c with
  | none => (x, 0)
  | some f => if (f.dec x).isNan then nanOut f (f.dec x).isSig else (f.read x, 0)

/-- The largest power of two below `n`, for `n` of at least 2 (R120). -/
def powBelow (n : Nat) : Nat := 2 ^ Nat.log2 (n - 1)

/-- The fixed tree of R120 with the flags of its nodes; `fuel` bounds its depth. -/
def redTree (n c : Nat) : Nat → List Nat → Nat × BitVec 5
  | 0, l => (l.headD 0, 0)
  | fuel + 1, l =>
    if l.length ≤ 1 then (l.headD 0, 0)
    else
      let p := redTree n c fuel (l.take (powBelow l.length))
      let q := redTree n c fuel (l.drop (powBelow l.length))
      let r := redOp n c p.1 q.1
      (r.1, r.2 ||| p.2 ||| q.2)

/-- VRED (R120, R430, R431): one result for every active element. -/
def execVred (m : BitVec 1) (d : BitVec 6) (a c : BitVec 8) (s : State) : Out :=
  issueBlock (.vred m d a c) (fun s _ => xGate m d 0 [a] (match redWidth c.toNat with | none => false | some n => n != s.w.ew) s) s
    (fun x s1 =>
      let e := activeVps s1.w m (ascending x.vps)
      let r := if e.length = 1 then redOne c.toNat (s1.w.operand a (e.headD 0)) else redTree s1.w.ew c.toNat 14 (e.map (s1.w.operand a))
      putResults s1 d 0 (e.map (fun v => (v, r))))

/-- The running results of R121. -/
def scanFrom (n c : Nat) (prev : Nat) : List (Nat × Nat) → List (Nat × Nat × BitVec 5)
  | [] => []
  | (v, x) :: t =>
    let r := redOp n c prev x
    (v, r) :: scanFrom n c r.1 t

/-- VSCAN (R121, R432). -/
def execVscan (m : BitVec 1) (d : BitVec 6) (a c : BitVec 8) (s : State) : Out :=
  issueBlock (.vscan m d a c) (fun s _ => xGate m d 0 [a] (match redWidth c.toNat with | none => false | some n => n != s.w.ew) s) s
    (fun x s1 =>
      match (activeVps s1.w m (ascending x.vps)).map (fun v => (v, s1.w.operand a v)) with
      | [] => putResults s1 d 0 []
      | (v, y) :: t => putResults s1 d 0 ((v, redOne c.toNat y) :: scanFrom s1.w.ew c.toNat y t))

/-- The number of ones in an element. -/
def onesOf (n x : Nat) : Nat := (List.range n).foldl (fun c k => c + bits x k 1) 0

/-- The running counts of BMAND (R341). -/
def countFrom (n run : Nat) : List (Nat × Nat) → List (Nat × Nat × BitVec 5)
  | [] => []
  | (v, x) :: t =>
    let r := (run + onesOf n x) % 2 ^ n
    (v, r, 0) :: countFrom n r t

/-- BMAND (R341). -/
def execBmand (m : BitVec 1) (d : BitVec 6) (ws : BitVec 1) (a b : BitVec 8) (s : State) : Out :=
  issueBlock (.bmand m d ws a b) (fun s _ => xGate m d ws [a, b] false s) s (fun x s1 =>
    putResults s1 d ws (countFrom s1.w.ew 0
      ((activeVps s1.w m (ascending x.vps)).map (fun v => (v, s1.w.operand a v &&& s1.w.operand b v)))))

/-- BMPOS (R342). -/
def execBmpos (m : BitVec 1) (d : BitVec 6) (ws : BitVec 1) (a b : BitVec 8) (s : State) : Out :=
  issueBlock (.bmpos m d ws a b) (fun s _ => xGate m d ws [a, b] false s) s (fun x s1 =>
    let n := s1.w.ew
    let e := activeVps s1.w m (ascending x.vps)
    let ps := e.flatMap (fun v => (List.range n).filterMap (fun k =>
      if bits (s1.w.operand a v) k 1 = 1 then some (v * n + k) else none))
    putResults s1 d ws (e.map (fun v => (v, min (ps.getD (s1.w.operand b v) (2 ^ n - 1)) (2 ^ n - 1), 0))))

/-! ### THFETCH, VPSTOP, REPF, VXSEND, VSPAWN -/

/-- The first VP whose THFETCH target would be the wave's 2,049th distinct address (R250); the targets that its step replaces
are counted no more. -/
def tooMany (s : State) (x : Issue) (l : List (Nat × U64)) : Option Nat :=
  let w := l.foldl (fun w e => match w.vp e.1 with | some (.run r p k _ b) => w.setVp e.1 (.run r p k none b) | _ => w) s.w
  (l.foldl (fun (acc : List U64 × Option Nat) e =>
    if acc.1.contains e.2 then acc
    else (acc.1 ++ [e.2], if acc.2.isNone && decide (2048 ≤ acc.1.length) then some e.1 else acc.2)) (w.addresses, none)).2.map
      (fun v => if x.vps.contains v then v else 0)

/-- THFETCH's effect (R389): each active VP records its target and the index of the word. -/
def latchTargets (s : State) (x : Issue) (l : List (Nat × U64)) : State :=
  s.mapW (fun w => l.foldl (fun w e =>
    match w.vp e.1 with
    | some (.run r p k _ b) => w.setVp e.1 (.run r p k (some (e.2, x.pos + 1)) b)
    | _ => w) w)

/-- The targets of a step. -/
def targetsOf (w : Wave) (m : BitVec 1) (x : Issue) (f : Nat → U64) : List (Nat × U64) := (activeVps w m x.vps).map (fun v => (v, f v))

/-- The gate of THFETCH: the AIB trap of R250. -/
def thGate (m : BitVec 1) (srcs : List (BitVec 8)) (deps : List (BitVec 5)) (f : State → Issue → Nat → U64) (s : State) (x : Issue) : BGate :=
  { m := m, srcs := srcs, deps := deps, late := (tooMany s x (targetsOf s.w m x (f s x))).map (fun v => ((0x13 : BitVec 8), v, x.addr)) }

/-- THFETCH of an offset (R389). -/
def execThfetch (m : BitVec 1) (o : BitVec 22) (s : State) : Out :=
  let f : State → Issue → Nat → U64 := fun _ x _ => branchTo x.addr (o.signExtend 64)
  issueBlock (.thfetch m o) (thGate m [] [] f) s (fun x s1 => latchTargets s1 x (targetsOf s1.w m x (f s1 x)))

/-- THFETCH of a register and an element (R389). -/
def execThfetchReg (m : BitVec 1) (b : BitVec 5) (a : BitVec 8) (s : State) : Out :=
  let f : State → Issue → Nat → U64 := fun s _ v => s.w.gs b + 4 * BitVec.ofNat 64 (s.w.operand a v)
  issueBlock (.thfetchReg m b a) (thGate m [a] [b] f) s (fun x s1 => latchTargets s1 x (targetsOf s1.w m x (f s1 x)))

/-- VPSTOP (R32, R428): active VPs go to the end of the block with no target. -/
def execVpstop (m : BitVec 1) (s : State) : Out :=
  issueBlock (.vpstop m) (fun _ _ => { m := m }) s (fun x s1 => s1.mapW (fun w => stopVps w (activeVps w m x.vps)))

/-- REPF (R305 to R308): its frame is checked; the lanes then run the frame's words as R307 says. -/
def execRepf (c : BitVec 4) (str : BitVec 6) (l : BitVec 4) (s : State) : Out :=
  issueBlock (.repf c str l) (fun s x =>
    { frame := frameCheck (fun w => (decodeWord w.toNat).isNone) s.w.cfg.nreg x.run.words x.pos x.word }) s (fun _ s1 => s1)

/-- VXSEND (R52, R446): each active VP pushes its element toward the next VP; a VP blocks while its boundary is full. -/
def execVxsend (m : BitVec 1) (a : BitVec 8) (s : State) : Out :=
  issueBlock (.vxsend m a) (fun s x =>
    { m := m, srcs := [a], idemBad := true, qseg := true
      room := (activeVps s.w m x.vps).filter (fun v => decide (4 ≤ (s.w.boundary (s.w.sendBnd v)).length)) }) s (fun x s1 =>
    (activeVps s1.w m x.vps).foldl (fun y v =>
      pushX (allocQseg y) { bnd := y.w.sendBnd v, vp := if v + 1 = y.w.cfg.vl then v else v + 1
                            val := BitVec.ofNat 64 (s1.w.operand a v) }) s1)

/-- VSPAWN (R200, R439, R440), one issue for every VP of its run: the active VPs' header addresses and arguments are offered; the offers are settled when the headers
have been read, and the block waits for it. -/
def execVspawn (m : BitVec 1) (md : BitVec 3) (a b : BitVec 8) (s : State) : Out :=
  issueBlock (.vspawn m md a b) (fun s x =>
    { m := m, srcs := [a, b], idemBad := true, bad9 := s.w.ew != 64, hold := s.w.offers.isSome || !allPresent s x }) s (fun x s1 =>
    let o : Offers :=
      { md := md, run := x.run.id, key := linOf x.run.words x.pos x.rep, vps := x.vps
        list := (activeVps s1.w m (ascending x.vps)).map (fun v =>
          (v, BitVec.ofNat 64 (s1.w.operand a v), BitVec.ofNat 64 (s1.w.operand b v))) }
    s1.mapW (fun w => { w with offers := some o }))

end Sys2Proof.Machine
end

