-- ==== Sys2Proof/Machine/Scalar.lean ====
section
/-! DEFINITION. The scalar ALU operations, opcodes 0x01 to 0x21 (R324 and the entries it names, R298). -/

namespace Sys2Proof.Machine

/-- What a scalar operation asks at issue: its registers not outstanding, 1 tick (R324, R473). -/
def scalarGate (d : BitVec 5) (srcs : List (BitVec 5)) : Gate := { deps := d :: srcs }

/-- A scalar operation: sd receives a value of the state at issue, and the next instruction follows (R324). -/
def scalarOp (i : Instr) (d : BitVec 5) (srcs : List (BitVec 5)) (f : Wave → U64) (s : State) : Out :=
  issueControl i (scalarGate d srcs) s (fun s1 => .next (advance (setS s1 d (f s1.w))))

/-- A two-register operation of format S (R296). -/
def scalarS (i : Instr) (d a b : BitVec 5) (f : U64 → U64 → U64) (s : State) : Out :=
  scalarOp i d [a, b] (fun w => f (w.gs a) (w.gs b)) s

/-- An operation of format SI, with the immediate sign-extended to 64 bits (R297). -/
def scalarSI (i : Instr) (d a : BitVec 5) (imm : BitVec 14) (f : U64 → U64 → U64) (s : State) : Out :=
  scalarOp i d [a] (fun w => f (w.gs a) (imm.signExtend 64)) s

/-- The number of bits that are 1 (R374). -/
def popCount (x : U64) : Nat := (List.range 64).foldl (fun n k => n + bits x.toNat k 1) 0

/-- The number of leading zero bits, 64 for zero (R349). -/
def leadingZeros (x : U64) : Nat := if x = 0 then 64 else 63 - Nat.log2 x.toNat

/-- SHL's and SHLI's function (R381). -/
def shlFn (a b : U64) : U64 := a <<< (b.toNat % 64)
/-- SHR's and SHRI's function. -/
def shrFn (a b : U64) : U64 := a >>> (b.toNat % 64)
/-- SAR's and SARI's function. -/
def sarFn (a b : U64) : U64 := a.sshiftRight (b.toNat % 64)

/-- ADD (R325). -/
def execAdd (d a b : BitVec 5) (s : State) : Out := scalarS (.add d a b) d a b (fun a b => a + b) s

/-- SUB (R387). -/
def execSub (d a b : BitVec 5) (s : State) : Out := scalarS (.sub d a b) d a b (fun a b => a - b) s

/-- MUL (R370). -/
def execMul (d a b : BitVec 5) (s : State) : Out := scalarS (.mul d a b) d a b (fun a b => a * b) s

/-- MULH (R370). -/
def execMulh (d a b : BitVec 5) (s : State) : Out := scalarS (.mulh d a b) d a b (fun a b => BitVec.ofNat 64 (a.toNat * b.toNat / 2 ^ 64)) s

/-- MULHS (R370). -/
def execMulhs (d a b : BitVec 5) (s : State) : Out := scalarS (.mulhs d a b) d a b (fun a b => BitVec.ofInt 64 (a.toInt * b.toInt / 2 ^ 64)) s

/-- DIV (R356, R108). -/
def execDiv (d a b : BitVec 5) (s : State) : Out := scalarS (.div d a b) d a b (fun a b => BitVec.ofNat 64 (divInt 64 false a.toNat b.toNat)) s

/-- DIVS (R356, R108). -/
def execDivs (d a b : BitVec 5) (s : State) : Out := scalarS (.divs d a b) d a b (fun a b => BitVec.ofNat 64 (divInt 64 true a.toNat b.toNat)) s

/-- REM (R379, R108). -/
def execRem (d a b : BitVec 5) (s : State) : Out := scalarS (.rem d a b) d a b (fun a b => BitVec.ofNat 64 (remInt 64 false a.toNat b.toNat)) s

/-- REMS (R379, R108). -/
def execRems (d a b : BitVec 5) (s : State) : Out := scalarS (.rems d a b) d a b (fun a b => BitVec.ofNat 64 (remInt 64 true a.toNat b.toNat)) s

/-- AND (R329). -/
def execAndS (d a b : BitVec 5) (s : State) : Out := scalarS (.andS d a b) d a b (fun a b => a &&& b) s

/-- OR (R373). -/
def execOrS (d a b : BitVec 5) (s : State) : Out := scalarS (.orS d a b) d a b (fun a b => a ||| b) s

/-- XOR (R455). -/
def execXorS (d a b : BitVec 5) (s : State) : Out := scalarS (.xorS d a b) d a b (fun a b => a ^^^ b) s

/-- SHL (R381). -/
def execShl (d a b : BitVec 5) (s : State) : Out := scalarS (.shl d a b) d a b (fun a b => shlFn a b) s

/-- SHR (R381). -/
def execShr (d a b : BitVec 5) (s : State) : Out := scalarS (.shr d a b) d a b (fun a b => shrFn a b) s

/-- SAR (R381). -/
def execSar (d a b : BitVec 5) (s : State) : Out := scalarS (.sar d a b) d a b (fun a b => sarFn a b) s

/-- SLT (R382). -/
def execSlt (d a b : BitVec 5) (s : State) : Out := scalarS (.slt d a b) d a b (fun a b => if a.toNat < b.toNat then 1 else 0) s

/-- SLTS (R382). -/
def execSlts (d a b : BitVec 5) (s : State) : Out := scalarS (.slts d a b) d a b (fun a b => if a.toInt < b.toInt then 1 else 0) s

/-- MIN (R363). -/
def execMinU (d a b : BitVec 5) (s : State) : Out := scalarS (.minU d a b) d a b (fun a b => if a.toNat ≤ b.toNat then a else b) s

/-- MINS (R363). -/
def execMins (d a b : BitVec 5) (s : State) : Out := scalarS (.mins d a b) d a b (fun a b => if a.toInt ≤ b.toInt then a else b) s

/-- MAX (R363). -/
def execMaxU (d a b : BitVec 5) (s : State) : Out := scalarS (.maxU d a b) d a b (fun a b => if b.toNat ≤ a.toNat then a else b) s

/-- MAXS (R363). -/
def execMaxs (d a b : BitVec 5) (s : State) : Out := scalarS (.maxs d a b) d a b (fun a b => if b.toInt ≤ a.toInt then a else b) s

/-- POPC (R374). -/
def execPopc (d a : BitVec 5) (s : State) : Out := scalarOp (.popc d a) d [a] (fun w => BitVec.ofNat 64 (popCount (w.gs a))) s

/-- CLZ (R349). -/
def execClz (d a : BitVec 5) (s : State) : Out := scalarOp (.clz d a) d [a] (fun w => BitVec.ofNat 64 (leadingZeros (w.gs a))) s

/-- ADDI (R325). -/
def execAddi (d a : BitVec 5) (imm : BitVec 14) (s : State) : Out := scalarSI (.addi d a imm) d a imm (fun a b => a + b) s

/-- ANDI (R329). -/
def execAndi (d a : BitVec 5) (imm : BitVec 14) (s : State) : Out := scalarSI (.andi d a imm) d a imm (fun a b => a &&& b) s

/-- ORI (R373). -/
def execOri (d a : BitVec 5) (imm : BitVec 14) (s : State) : Out := scalarSI (.ori d a imm) d a imm (fun a b => a ||| b) s

/-- XORI (R455). -/
def execXori (d a : BitVec 5) (imm : BitVec 14) (s : State) : Out := scalarSI (.xori d a imm) d a imm (fun a b => a ^^^ b) s

/-- SHLI (R381). -/
def execShli (d a : BitVec 5) (imm : BitVec 14) (s : State) : Out := scalarSI (.shli d a imm) d a imm (fun a b => shlFn a b) s

/-- SHRI (R381). -/
def execShri (d a : BitVec 5) (imm : BitVec 14) (s : State) : Out := scalarSI (.shri d a imm) d a imm (fun a b => shrFn a b) s

/-- SARI (R381). -/
def execSari (d a : BitVec 5) (imm : BitVec 14) (s : State) : Out := scalarSI (.sari d a imm) d a imm (fun a b => sarFn a b) s

/-- SLTI (R382): signed. -/
def execSlti (d a : BitVec 5) (imm : BitVec 14) (s : State) : Out := scalarSI (.slti d a imm) d a imm (fun a b => if a.toInt < b.toInt then 1 else 0) s

/-- LI (R298): sd receives the sign-extended immediate. -/
def execLi (d : BitVec 5) (imm : BitVec 19) (s : State) : Out := scalarOp (.li d imm) d [] (fun _ => imm.signExtend 64) s

/-- LIS (R298): sd shifted left by 19 with the immediate put below. -/
def execLis (d : BitVec 5) (imm : BitVec 19) (s : State) : Out :=
  scalarOp (.lis d imm) d [] (fun w => (w.gs d <<< 19) ||| imm.setWidth 64) s

end Sys2Proof.Machine
end

