-- ==== Sys2Proof/Machine/Control.lean ====
section
/-! DEFINITION. Branches, traps and their return, EXIT, and control registers (R4, R5, R50, R56, R101, R102, R111, R133,
R234 to R241, R256, R299 to R301, R330, R334, R343, R348, R352 to R358, R372, R375). -/

namespace Sys2Proof.Machine

/-! ### Plain control flow -/

/-- NOP (R372). -/
def execNop (s : State) : Out := issueControl .nop {} s (fun s1 => .next (advance s1))

/-- B (R299, R330). -/
def execBr (o : BitVec 24) (s : State) : Out :=
  issueControl (.br o) {} s (fun s1 => .next (jumpTo s1 (branchTo s1.w.pc (o.signExtend 64))))

/-- BC (R300, R334). -/
def execBc (c : BitVec 3) (a b : BitVec 5) (o : BitVec 11) (s : State) : Out :=
  issueControl (.bc c a b o) { deps := [a, b] } s (fun s1 =>
    if icmp 64 c (s1.w.gs a).toNat (s1.w.gs b).toNat then .next (jumpTo s1 (branchTo s1.w.pc (o.signExtend 64)))
    else .next (advance s1))

/-- CALL (R299, R348). -/
def execCall (o : BitVec 24) (s : State) : Out :=
  issueControl (.call o) { deps := [31] } s (fun s1 =>
    .next (jumpTo (setS s1 31 (s1.w.pc + 4)) (branchTo s1.w.pc (o.signExtend 64))))

/-- JR (R301): the target is read before the link is written; a misaligned one raises ALIGN and writes no link. -/
def execJr (d a : BitVec 5) (s : State) : Out :=
  issueControl (.jr d a) { deps := [d, a] } s (fun s1 =>
    let t := s1.w.gs a
    if bits t.toNat 0 2 ≠ 0 then .next (trapAt s1 0x06 t)
    else .next (jumpTo (setS s1 d (s1.w.pc + 4)) t))

/-- The lowest `n` bits of a mask. -/
def maskLow (n : Nat) (x : BitVec 8192) : Nat := x.toNat % 2 ^ n

/-- A mask branch (R50): it waits for the queue and quiescence, then looks at the bits of the mask below VL. -/
def maskBranch (i : Instr) (m : BitVec 3) (o : BitVec 21) (take : Nat → Nat → Bool) (s : State) : Out :=
  issueControl i { noHandler := true } s (fun s1 =>
    if !s1.w.settled then .next (waiting i 0 s1)
    else if take s1.w.cfg.vl (maskLow s1.w.cfg.vl (s1.w.mask m)) then .next (jumpTo s1 (branchTo s1.w.pc (o.signExtend 64)))
    else .next (advance s1))

/-- BRANY (R50, R343). -/
def execBrany (m : BitVec 3) (o : BitVec 21) (s : State) : Out := maskBranch (.brany m o) m o (fun _ x => x != 0) s

/-- BRALL (R50, R343). -/
def execBrall (m : BitVec 3) (o : BitVec 21) (s : State) : Out := maskBranch (.brall m o) m o (fun n x => x == 2 ^ n - 1) s

/-- BRNONE (R50, R343). -/
def execBrnone (m : BitVec 3) (o : BitVec 21) (s : State) : Out := maskBranch (.brnone m o) m o (fun _ x => x == 0) s

/-! ### Traps -/

/-- TRAP (R238): SWTRAP with the operand as EVAL; EPC names the next instruction. -/
def execTrapS (c : BitVec 24) (s : State) : Out :=
  issueControl (.trapS c) {} s (fun s1 => .next (enterTrap s1 0 0x11 0 0 (c.setWidth 64) (s1.w.pc + 4) []))

/-- A wave-stop (R257). -/
def stopWave (s : State) : State := s.mapW (fun w => { w with dbg := { w.dbg with stopped := true }, latches := [] })

/-- DBGBRK (R355): BRK with EPC at the next instruction, or with DBGCTL.ENA a wave-stop after which the next instruction
follows. -/
def execDbgbrk (c : BitVec 24) (s : State) : Out :=
  issueControl (.dbgbrk c) {} s (fun s1 =>
    if s1.w.dbg.ena then .next (stopWave (advance s1))
    else .next (enterTrap s1 0 0x10 0 0 s1.w.pc (s1.w.pc + 4) []))

/-- ERET (R241, R357): PRIV outside handler mode. -/
def execEret (s : State) : Out :=
  issueControl .eret { privBad := !s.w.trp.inh } s (fun s1 => .next (leaveTrap s1))

/-! ### EXIT (R358) -/

/-- Whether a trap that has been raised holds the block that a VP runs on its lane (R236). -/
def Wave.trapHolds (w : Wave) (v run : Nat) : Bool :=
  w.traps.any (fun t => t.src == 1 && t.vps.any (fun u => w.laneOf u == w.laneOf v && ((w.vp u).bind VpSt.runId) == some run))

/-- Whether EXIT lets a VP complete its block: the block has started, and neither a trap nor pre-emption holds it; a VP blocked on a
cross-element queue is discarded (R358, step 1). -/
def Wave.exitKeeps (w : Wave) (e : Nat × VpSt) : Bool :=
  match e.2 with
  | .run r _ _ _ b => !w.trp.inh && !b && !w.trapHolds e.1 r && ((w.run? r).map (fun x => !x.stopped)).getD false
  | _ => false

/-- EXIT's first two steps: thread-state, parked, caught and blocked VPs and blocks held by a trap or by pre-emption never
run again; queue entries that have not taken effect and unfired markers are discarded. An issue of VSPAWN that awaits its headers is
past its boundary: its offers are settled (R200). -/
def exitDiscard (s : State) : State :=
  s.mapW (fun w =>
    let vps := w.vps.filter w.exitKeeps
    { w with vps := vps, runs := w.runs.filter (fun r => vps.any (fun e => e.2.runId == some r.id)), frontier := [], serialVp := none,
             vq := [], fetches := [], markers := [] })

/-- Whether EXIT's waits are over: blocks complete, offers settled, matrix work complete, replies to atomics, scalar loads and BKRED
elements arrived. -/
def exitReady (w : Wave) : Bool :=
  w.runs.isEmpty && w.offers.isNone && w.mat.isEmpty && w.loads.isEmpty && w.replies.isEmpty &&
    w.reqs.all (fun r => (match r.op with | .store _ => true | .bank _ _ _ => false))

/-- EXIT (R358): the wave ends once its waits are over. -/
def execExitW (s : State) : Out :=
  issueControl .exitW { ticks := 0 } s (fun s1 =>
    let s2 := exitDiscard s1
    if exitReady s2.w then .next (removeWave s2) else .next (waiting .exitW 0 s2))

/-! ### Control registers (R4, R5, R321, R353, R354) -/

/-- The registers whose access waits for the queue and quiescence (R354). -/
def crWaits (c : BitVec 12) : Bool :=
  decide (c.toNat ≤ 0x004 ∨ c.toNat = 0x006 ∨ c.toNat = 0x008 ∨ c.toNat = 0x030 ∨ c.toNat = 0x031 ∨ (0x040 ≤ c.toNat ∧ c.toNat ≤ 0x047))

/-- What a control-register access asks at issue: 2 ticks, and a supervisor for a number at 0x800 or above (R321, R353). -/
def crGate (c : BitVec 12) (r : BitVec 5) (s : State) : Gate :=
  { deps := [r], ticks := 2, privBad := decide (0x800 ≤ c.toNat) && !s.w.sup }

/-- CRRD (R353, R354). -/
def execCrrd (d : BitVec 5) (c : BitVec 12) (s : State) : Out :=
  issueControl (.crrd d c) (crGate c d s) s (fun s1 =>
    if crWaits c && !s1.w.settled then .next (waiting (.crrd d c) 0 s1)
    else .next (advance (setS s1 d (s1.crValue c.toNat))))

/-- Whether a write has a non-zero bit in a reserved field that raises ILLOP (R5, R61, R111, R223). -/
def crBad (c : BitVec 12) (v : U64) : Bool :=
  (c == 0x003 && bits v.toNat 6 58 != 0) || (c == 0x005 && bits v.toNat 2 62 != 0) || (c == 0x007 && bits v.toNat 3 61 != 0)

/-- The fields of a wave's register written (R4): RW fields take the value, RS fields are cleared by a written 0. -/
def crWrite (w : Wave) (c : BitVec 12) (v : U64) : Wave :=
  let b (k : Nat) : Bool := bits v.toNat k 1 == 1
  if c = 0x003 then { w with cfg := { w.cfg with vstart := BitVec.ofNat 6 v.toNat } }
  else if c = 0x005 then { w with cfg := { w.cfg with frm := BitVec.ofNat 2 v.toNat } }
  else if c = 0x006 then
    { w with ctl := { w.ctl with dualfix := w.ctl.dualfix && b 6, ntrans := w.ctl.ntrans && b 5, short := w.ctl.short && b 4,
                                 latinv := w.ctl.latinv && b 3, rdrel := w.ctl.rdrel && b 2 } }
  else if c = 0x007 then { w with ctl := { w.ctl with dual := b 2, lattrap := b 1, rdreltrap := b 0 } }
  else if c = 0x803 then { w with trp := { w.trp with epc := BitVec.ofNat 58 (v.toNat / 4) } }
  else if c = 0x804 then { w with trp := { w.trp with ppriv := b 62, rskip := b 61 } }
  else w

/-- CRWR of a register without a row of its own (R321, R353, R354). -/
def execCrwr (a : BitVec 5) (c : BitVec 12) (s : State) : Out :=
  issueControl (.crwr a c) (crGate c a s) s (fun s1 =>
    if crWaits c && !s1.w.settled then .next (waiting (.crwr a c) 0 s1)
    else if crBad c (s1.w.gs a) then .next (trapHere s1 0x01)
    else .next (advance (s1.mapW (fun w => crWrite w c (w.gs a)))))

/-- CRRD and CRWR of FFLAGS (R115, R116): `wr` tells the write, in which a written 0 clears a flag. -/
def execFflagsAccess (wr : BitVec 1) (r : BitVec 5) (s : State) : Out :=
  issueControl (.fflagsAccess wr r) (crGate 0x004 r s) s (fun s1 =>
    if !s1.w.settled then .next (waiting (.fflagsAccess wr r) 0 s1)
    else if wr = 0 then .next (advance (setS s1 r (s1.w.cfg.fflags.setWidth 64)))
    else .next (advance (s1.mapW (fun w => { w with cfg := { w.cfg with fflags := w.cfg.fflags &&& (w.gs r).setWidth 5 } }))))

/-- A privileged register written by the control thread: ILLOP for a value that its field map refuses. -/
def crWritePriv (i : Instr) (c : BitVec 12) (a : BitVec 5) (bad : U64 → Bool) (f : State → U64 → State) (s : State) : Out :=
  issueControl i (crGate c a s) s (fun s1 =>
    if bad (s1.w.gs a) then .next (trapHere s1 0x01) else .next (advance (f s1 (s1.w.gs a))))

/-- Whether a resident wave's lane group includes a lane of quad `q` (R102). -/
def quadUsed (s : State) (q : Nat) : Bool :=
  (s.residents s.w.die s.w.cl).any (fun w => decide (w.base < 4 * q + 4) && decide (4 * q < w.base + w.lanes))

/-- LANEPWR written (R102): a used quad keeps its bit; a quad that powers up accepts placements after QUAD_POWER_UP_READY. -/
def setLanePower (s : State) (v : U64) : State :=
  let c := s.myCluster
  let want : BitVec 4 := BitVec.ofNat 4 v.toNat
  let used : BitVec 4 := BitVec.ofNat 4 ((List.range 4).foldl (fun x q => x + if quadUsed s q then 2 ^ q else 0) 0)
  let on : BitVec 4 := want ||| (c.qon &&& used)
  s.setMyCluster { c with qon := on, qpend := (c.qpend ||| (want &&& ~~~c.qon)) &&& on }

/-- CRWR of LANEPWR (R101, R102). -/
def execLanepwrWrite (a : BitVec 5) (s : State) : Out :=
  crWritePriv (.lanepwrWrite a) 0x800 a (fun v => bits v.toNat 4 60 != 0) setLanePower s

/-- CRWR of TRAPVEC: the die's value (R234). -/
def execTrapvecWrite (a : BitVec 5) (s : State) : Out :=
  crWritePriv (.trapvecWrite a) 0x802 a (fun v => bits v.toNat 60 4 != 0)
    (fun s1 v => s1.setDie s1.w.die { s1.die s1.w.die with trapvec := BitVec.ofNat 58 (v.toNat / 4) }) s

/-- The entry that a write of a token register installs (R191): a SYNC value of 0 is stored as 1. -/
def tokEntryOf (v : U64) : TokEntry :=
  { asid := BitVec.ofNat 16 (v.toNat / 2 ^ 48), bulk := BitVec.ofNat 16 (v.toNat / 2 ^ 32), demand := BitVec.ofNat 16 (v.toNat / 2 ^ 16)
    sync := if v.toNat % 2 ^ 16 = 0 then 1 else BitVec.ofNat 16 v.toNat }

/-- The first listed tenant without a resident wave on the focused wave's cluster removed (R191). -/
def dropTenant (s : State) : List TokEntry → List TokEntry
  | [] => []
  | e :: t => if (s.residents s.w.die s.w.cl).any (fun w => w.asid == e.asid) then e :: dropTenant s t else t

/-- A token table after a write (R191). -/
def tokWrite (s : State) (t : TokTable) (v : U64) : TokTable :=
  let e := tokEntryOf v
  if e.asid = 0xFFFF then { t with dflt := e, last := e.asid }
  else
    let rest := t.tab.filter (fun x => x.asid != e.asid)
    { t with tab := (if 128 ≤ rest.length then dropTenant s rest else rest) ++ [e], last := e.asid }

/-- CRWR of TOKRATE (R191). -/
def execTokrateWrite (a : BitVec 5) (s : State) : Out :=
  crWritePriv (.tokrateWrite a) 0x810 a (fun _ => false)
    (fun s1 v => s1.setMyCluster { s1.myCluster with rate := tokWrite s1 s1.myCluster.rate v }) s

/-- CRWR of TOKDEPTH (R191). -/
def execTokdepthWrite (a : BitVec 5) (s : State) : Out :=
  crWritePriv (.tokdepthWrite a) 0x811 a (fun _ => false)
    (fun s1 v => s1.setMyCluster { s1.myCluster with depth := tokWrite s1 s1.myCluster.depth v }) s

/-- CRWR of DBGCTL (R256): bit 60 and a WMODE of 3 raise ILLOP. -/
def execDbgctlWrite (a : BitVec 5) (s : State) : Out :=
  crWritePriv (.dbgctlWrite a) 0x820 a (fun v => bits v.toNat 60 1 != 0 || bits v.toNat 0 2 == 3)
    (fun s1 v => s1.mapW (fun w => { w with dbg := { w.dbg with
      ena := bits v.toNat 63 1 == 1, laneMode := bits v.toNat 62 1 == 1, single := bits v.toNat 61 1 == 1
      baddr := BitVec.ofNat 58 (v.toNat / 4), wmode := BitVec.ofNat 2 v.toNat } })) s

/-! ### CONTSET, PSETVL -/

/-- CONTSET (R133, R352): an index above NENT raises ILLOP and leaves CIDX. -/
def execContset (idx : BitVec 4) (s : State) : Out :=
  issueControl (.contset idx) {} s (fun s1 =>
    if s1.w.hdr.nent < idx.toNat then .next (trapHere s1 0x01)
    else .next (advance (s1.mapW (fun w => { w with bud := { w.bud with cidx := idx } }))))

/-- The enabled clusters before a die (R56). -/
def State.enclBefore (s : State) (d : Nat) : Nat := (List.range d).foldl (fun x k => x + (s.die k).encl) 0

/-- off(d) of R56. -/
def State.shareOff (s : State) (n d : Nat) : Nat := n * s.enclBefore d / s.enclBefore s.ndie

/-- The die's share and first index of an application length (R56). -/
def State.share (s : State) (n : Nat) : Nat × Nat :=
  if s.w.hdr.pkg then (s.shareOff n (s.w.die + 1) - s.shareOff n s.w.die, s.shareOff n s.w.die) else (n, 0)

/-- PSETVL (R56, R57, R375). -/
def execPsetvl (d a : BitVec 5) (s : State) : Out :=
  issueControl (.psetvl d a) { deps := [d, a] } s (fun s1 =>
    let r := s1.share (s1.w.gs a).toNat
    .next (advance ((setS s1 d (BitVec.ofNat 64 r.1)).mapW (fun w => { w with cfg := { w.cfg with pvoff := BitVec.ofNat 64 r.2 } }))))

/-! ### Words that no control thread executes -/

/-- ABEGIN reached as an instruction (R322): the AIB trap, whether in the control thread or in a block's body. -/
def execAbegin (l p : BitVec 6) (im c : BitVec 1) (s : State) : Out :=
  match s.agent with
  | .control => controlRefuses (.abegin l p im c) s
  | .lane _ _ => laneRefuses (.abegin l p im c) s

/-- A word with an unassigned opcode or a non-zero reserved or unused field (R286, R320): ILLOP, wherever it stands. -/
def execUnassignedOpcode (w : BitVec 32) (s : State) : Out :=
  match s.agent with
  | .control => controlRefuses (.unassignedOpcode w) s
  | .lane _ _ => laneRefuses (.unassignedOpcode w) s

end Sys2Proof.Machine
end

