-- ==== Sys2Proof/Machine/ScalarMem.lean ====
section
/-! DEFINITION. Scalar memory instructions, waits on memory, TLBINV and the fences, with the order in which a wave's accesses may
be performed (R146, R147, R163 to R180, R326 to R328, R359 to R361, R385, R386, R390, R449, R450, R454). -/

namespace Sys2Proof.Machine

/-! ### The order of a wave's accesses (R169 to R175) -/

/-- The loads of a wave that have taken effect and are not yet performed; an element of a linked load that is not admitted has
not (R187). -/
def Wave.openLoads (w : Wave) : List Load := (w.loads ++ w.vland).filter (fun l => l.linked.isNone)

/-- Whether an older acquire of a path is still to be performed (R175). -/
def acquirePending (w : Wave) (p : Path) (before : Nat) : Bool :=
  w.reqs.any (fun r => decide (r.path = p ∧ r.sseq < before) && r.acq) ||
    w.openLoads.any (fun l => decide (l.path = p ∧ l.sseq < before) && l.acq)

/-- Whether a load may be performed: no older acquire of its path (R175), no older atomic to its bytes (R169), and no older load of its
path, on VEC to any location (R171), on another path to its bytes (R169). -/
def loadFree (s : State) (l : Load) : Bool :=
  l.linked.isNone && !acquirePending s.w l.path l.sseq && !mustWait s l.path l.sseq l.tgt l.size &&
    s.w.openLoads.all (fun m => !(decide (m.path = l.path ∧ m.sseq < l.sseq) && (l.path == .vec || m.tgt.overlaps m.size l.tgt l.size)))

/-- Whether a request is an atomic or bank operation. -/
def ReqOp.isBank : ReqOp → Bool
  | .store _ => false
  | .bank _ _ _ => true

/-- Whether an older request of the same path must be performed before a request: the VEC path keeps its order between
instructions (R170, R171), one location keeps it (R407) but for the elements of one atomic (R396), and acquires and releases
keep theirs (R175). -/
def reqBehind (q r : Req) : Bool :=
  decide (q.path = r.path) &&
    ((q.tgt.overlaps q.size r.tgt r.size && !(decide (q.grp = r.grp) && r.op.isBank)) ||
      (decide (q.grp ≠ r.grp) && (q.acq || r.rel || decide (r.path = .vec))))

/-- Whether a request's data come from another element of the load that an open load belongs to: it may be performed before that one
(R173). -/
def Req.sendsOn (r : Req) (l : Load) : Bool := match r.src with | some (q, _) => q == l.sseq | none => false

/-- Whether the request at a place of the wave's list may be performed. -/
def reqFree (s : State) (k : Nat) : Bool :=
  match s.w.reqs[k]? with
  | none => false
  | some r =>
    !s.w.waitsFor r && (s.w.reqs.take k).all (fun q => !reqBehind q r) &&
      s.w.openLoads.all (fun l => !(decide (l.path = r.path ∧ l.sseq < r.sseq) &&
        (l.acq || r.rel || (r.path == .vec && !r.sendsOn l) || l.tgt.overlaps l.size r.tgt r.size)))

/-- Whether no copy of the focused wave, on whatever cluster it entered the engine, and no work-distributor answer of it is on its way:
the BULK path (R168, R179, R180). -/
def bulkDone (s : State) : Bool :=
  s.clusters.all (fun e => e.2.bulk.all (fun b => b.wave != s.w.id)) && s.wdq.all (fun q => q.wave != s.w.id)

/-- Whether every access of a path that the wave has made is performed, and visible at every scope (R174). -/
def pathDone (s : State) (p : Path) : Bool :=
  s.w.openLoads.all (fun l => decide (l.path ≠ p)) && s.w.reqs.all (fun r => decide (r.path ≠ p)) &&
    (decide (p ≠ .bulk) || bulkDone s) &&
    (decide (p ≠ .matx) || s.w.mat.all (fun e => opOf e.word != 0xB7 && opOf e.word != 0xB8))

/-- The place of the next access in the order of the wave's accesses. -/
def nextSeq (s : State) : State := { s with sseq := s.sseq + 1 }

/-! ### LD, ST, AMO -/

/-- The address of LD and ST (R360, R385). -/
def lsAddr (s : State) (a : BitVec 5) (o : BitVec 11) : U64 := s.w.gs a + o.signExtend 64

/-- Sectors of one scalar access (R131). -/
def lsSectors (va : U64) : Nat := if inAperture va.toNat then 0 else 1

/-- What LD, ST and AMO of `n` bytes ask at issue (R127, R190). -/
def lsGate (va : U64) (n : Nat) (deps : List (BitVec 5)) : Gate :=
  { deps := deps, sectors := lsSectors va, cls := some 2, vas := walked false n va }

/-- The register where a scalar result lands; none for s0. -/
def dstOf (d : BitVec 5) : Dst := if d = 0 then .none else .sreg d

/-- LD (R360, R361); poisoned data are found when they are read. -/
def execLd (d a : BitVec 5) (z : BitVec 2) (sg : BitVec 1) (o : BitVec 11) (s : State) : Out :=
  let va := lsAddr s a o
  let n := 2 ^ z.toNat
  issueControl (.ld d a z sg o) (lsGate va n [d, a]) s (fun s1 =>
    match resolve s1 Acc.load false va n with
    | .error c => .next (trapAt s1 c va)
    | .ok g =>
      let l : Load := { sseq := s1.sseq, path := .vec, tgt := g, size := n, sgn := sg == 1, dst := dstOf d, va := va }
      .next (advance (nextSeq ((spendTokens s1 2 (lsSectors va)).mapW (fun w => { w with loads := w.loads ++ [l] })))))

/-- ST (R385, R386). -/
def execSt (d a : BitVec 5) (z : BitVec 2) (o : BitVec 11) (s : State) : Out :=
  let va := lsAddr s a o
  let n := 2 ^ z.toNat
  issueControl (.st d a z o) (lsGate va n [d, a]) s (fun s1 =>
    match resolve s1 Acc.store false va n with
    | .error c => .next (trapAt s1 c va)
    | .ok g =>
      let r : Req := { sseq := s1.sseq, grp := s1.sseq, path := .vec, tgt := g, size := n, op := .store (s1.w.gs d), va := va }
      .next (advance (nextSeq ((dropSharing (spendTokens s1 2 (lsSectors va)) g n).mapW (fun w => { w with reqs := w.reqs ++ [r] })))))

/-- What an atomic asks of a leaf; a network window carries it at SYSTEM scope for CAS and ADD with the right A (R167, R277,
R279). -/
def atomicAcc (scope op : Nat) : Acc := { r := true, w := true, net := if scope = 4 ∧ (op = 1 ∨ op = 2) then some 4 else none }

/-- AMO (R327, R328). -/
def execAmo (d a b : BitVec 5) (o : BitVec 4) (c : BitVec 3) (r : BitVec 2) (s : State) : Out :=
  let va := s.w.gs a
  issueControl (.amo d a b o c r) (lsGate va 8 [d, a, b]) s (fun s1 =>
    match resolve s1 (atomicAcc c.toNat o.toNat) false va 8 with
    | .error e => .next (trapAt s1 e va)
    | .ok g =>
      if s1.poisonedAt g then .next (trapAt s1 0x0F va)
      else
        let acq := r.getLsbD 0
        let q : Req := { sseq := s1.sseq, grp := s1.sseq, path := .vec, tgt := g, size := 8
                         op := .bank o.toNat (s1.w.gs b) (s1.w.gs d), dst := dstOf d, rel := r.getLsbD 1, acq := acq
                         drop := acq && decide (2 ≤ c.toNat), va := va }
        .next (advance (nextSeq ((dropSharing (spendTokens s1 2 (lsSectors va)) g 8).mapW (fun w => { w with reqs := w.reqs ++ [q] })))))

/-! ### WAITADDR -/

/-- The target of an operand that must lie in package memory, checked in the order of R286: PAGE, ALIGN, PERM for the aperture,
then R163, where a network window is PERM. -/
def packageTarget (s : State) (acc : Acc) (va : U64) (n : Nat) : Except (BitVec 8) Target :=
  if bits va.toNat 60 4 != 0 then .error 0x05
  else if va.toNat % n != 0 then .error 0x06
  else if inAperture va.toNat then .error 0x07
  else translate s s.w.asid s.w.sup acc va.toNat

/-- A doubleword as the home bank holds it, with the wave's own older stores of the VEC path (R170, R449). -/
def homeValue (s : State) (g : Target) : Nat :=
  (List.range 8).foldr (fun k x =>
    overlayByte (ownStores s .vec s.sseq) g.loc.1 (g.loc.2 + k) (targetRead s s.w.team g 8 / 256 ^ k % 256) + 256 * x) 0

/-- Whether WAITADDR may read now: after the wave's older loads and acquires, and its own atomics to the location. -/
def waitaddrFree (s : State) (g : Target) : Bool :=
  s.w.openLoads.all (fun l => decide (l.path ≠ .vec)) && !acquirePending s.w .vec s.sseq && !mustWait s .vec s.sseq g 8

/-- One read of the location by WAITADDR: it waits for its translation (R166) and while a failed link holds it (R262); a fault traps, an
unchanged location leaves it waiting, and the completing read is an acquire. -/
def waitaddrRead (d a b : BitVec 5) (s : State) : State :=
  let va := s.w.gs a
  match awaitWalks 0 (walked false 8 va) s with
  | some t => waiting (.waitaddr d a b) 0 t
  | none =>
  match packageTarget s Acc.load va 8 with
  | .error c => trapAt s c va
  | .ok g =>
    if tripHeld s s.w.die g then waiting (.waitaddr d a b) 0 s
    else if s.poisonedAt g then trapAt s 0x0F va
    else
      let v : U64 := BitVec.ofNat 64 (homeValue s g)
      if waitaddrFree s g && v != s.w.gs b then advance (setS (dropAllEarly (dropL1 s)) d v) else waiting (.waitaddr d a b) 0 s

/-- WAITADDR (R449, R450): each execution while it waits reads the location again. -/
def execWaitaddr (d a b : BitVec 5) (s : State) : Out :=
  issueControl (.waitaddr d a b) { deps := [d, a, b], mem := true, vas := walked false 8 (s.w.gs a) } s (fun s1 => .next (waitaddrRead d a b s1))

/-! ### TLBINV -/

/-- Every listed cluster changed. -/
def mapClusters (s : State) (f : Nat → Cluster → Cluster) : State :=
  s.clusters.foldl (fun x e => { x with clusters := spSet {} x.clusters e.1 (f e.1 e.2) }) s

/-- What a TLBINV drops: the TLB entries that a test matches, and the walker-cache entries of an address space or of all (R390). -/
structure Inval where
  tlb : TlbEntry → Bool
  asid : Option (BitVec 16)

/-- Whether a TLBINV drops the walker-cache entries of an address space. -/
def Inval.drops (p : Inval) (asid : BitVec 16) : Bool := match p.asid with | none => true | some x => x == asid

/-- Whether a TLBINV drops the end of a walk that its waiters have not used yet. -/
def Inval.ends (p : Inval) (m : Miss) : Bool :=
  match m.done with
  | none => false
  | some (.fault _) => p.drops m.asid
  | some (.leaf e b) => p.tlb ⟨m.asid, m.region * 2 ^ 19 / 2 ^ b, b, BitVec.ofNat 64 e⟩

/-- Cached translations that a TLBINV matches dropped in every cluster of the package: TLB and walker-cache entries, and ends of walks
(R165). -/
def dropTlb (s : State) (p : Inval) : State :=
  mapClusters s (fun _ c => { c with tlb := c.tlb.filter (fun e => !p.tlb e), walker := c.walker.filter (fun e => !p.drops e.asid)
                                     misses := c.misses.filter (fun m => !p.ends m) })

/-- The saves and restores that faulted on a die are tried again (R252, R390). -/
def retrySaves (s : State) (die : Nat) : State :=
  let f (w : Wave) : Wave := if w.die = die ∧ !w.isGone then { w with saveFault := false } else w
  { s with w := f s.w, others := s.others.map f }

/-- Whether an entry is tagged with an ASID and not global. -/
def TlbEntry.tagged (e : TlbEntry) (asid : U64) : Bool := e.asid == BitVec.ofNat 16 asid.toNat && Sys2Proof.bits e.leaf.toNat 6 1 == 0

/-- The entries that TLBINV.page drops. -/
def matchPage (a b : BitVec 5) (s : State) (e : TlbEntry) : Bool :=
  decide (e.vpage = bits (s.w.gs a).toNat 0 60 / 2 ^ e.bits) &&
    (e.asid == BitVec.ofNat 16 (s.w.gs b).toNat || bits e.leaf.toNat 6 1 == 1)

/-- What TLBINV.page drops. -/
def invalPage (a b : BitVec 5) (s : State) : Inval := ⟨matchPage a b s, some (BitVec.ofNat 16 (s.w.gs b).toNat)⟩
/-- What TLBINV.asid drops. -/
def invalAsid (b : BitVec 5) (s : State) : Inval := ⟨fun e => e.tagged (s.w.gs b), some (BitVec.ofNat 16 (s.w.gs b).toNat)⟩
/-- What TLBINV.all drops. -/
def invalAll : Inval := ⟨fun _ => true, none⟩

/-- The effect of a TLBINV. -/
def tlbinvEffect (p : Inval) (s : State) : State := advance (retrySaves (dropTlb s p) s.w.die)

/-- Whether a queue entry can write memory. -/
def writesMemory (s : State) (e : QEntry) : Bool :=
  let op := opOf e.word
  decide (op = 0x91 ∨ op = 0x94 ∨ op = 0x95 ∨ op = 0x96 ∨ op = 0x98 ∨ op = 0xB7) ||
    (op == 0x45 && (match blockWords s e.x with
      | none => false
      | some (_, ws) => ws.any (fun x => decide (opOf x = 0x91 ∨ opOf x = 0x95))))

/-- Whether a fetch ahead of the queue names a block that can write memory. -/
def fetchWrites (s : State) (f : Fetch) : Bool :=
  match blockWords s f.addr with | none => false | some (_, ws) => ws.any (fun x => decide (opOf x = 0x91 ∨ opOf x = 0x95))

/-- Whether a block in execution can write memory, and is not held. -/
def Run.writes (r : Run) : Bool := !r.stopped && r.words.any (fun x => decide (opOf x = 0x91 ∨ opOf x = 0x95))

/-- Whether a TLBINV that began at a place in the order of accesses may take effect (R165, R390): every older store of the wave is at its
home, those of queue entries and blocks too outside handler mode, where the queue does not advance; and every walk started before it has
ended. -/
def tlbinvReady (since : Nat) (s : State) : Bool :=
  s.w.reqs.isEmpty &&
    (s.w.trp.inh || (s.w.vqNow.all (fun e => !writesMemory s e) && s.w.fetchesNow.all (fun f => !fetchWrites s f) &&
      s.w.runs.all (fun r => !r.writes))) &&
    s.clusters.all (fun e => e.2.misses.all (fun m => m.done.isSome || decide (since ≤ m.seq)))

/-- TLBINV (R390): it waits until it may take effect; the phase of its wait is its place in the order of accesses. -/
def tlbinv (i : Instr) (deps : List (BitVec 5)) (p : State → Inval) (s : State) : Out :=
  issueControl i { privBad := !s.w.sup, deps := deps, ticks := 2, mem := true } s (fun s1 =>
    let since := s1.w.phase.getD s1.sseq
    if tlbinvReady since s1 then .next (tlbinvEffect (p s1) s1) else .next (waiting i since s1))

/-- TLBINV.page. -/
def execTlbinvPage (a b : BitVec 5) (s : State) : Out := tlbinv (.tlbinvPage a b) [a, b] (invalPage a b) s

/-- TLBINV.asid. -/
def execTlbinvAsid (b : BitVec 5) (s : State) : Out := tlbinv (.tlbinvAsid b) [b] (invalAsid b) s

/-- TLBINV.all. -/
def execTlbinvAll (s : State) : Out := tlbinv .tlbinvAll [] (fun _ => invalAll) s

/-! ### FENCE and XFENCE -/

/-- The five paths in the order of their mask bits (R168). -/
def allPaths : List Path := [.vec, .gath, .bulk, .bank, .matx]

/-- Whether the ordering wait of a FENCE kind is over (R179). -/
def fenceDone (s : State) (k : BitVec 2) : Bool :=
  if k = 1 then s.w.openLoads.isEmpty && s.w.reqs.all (fun r => match r.op with | .store _ => true | .bank _ _ _ => false) &&
    pathDone s .bulk && pathDone s .matx
  else allPaths.all (pathDone s)

/-- Instruction caches within a scope drop every line (R179). -/
def dropIcache (s : State) (scope : Nat) : State :=
  if scope ≤ 1 then s.setMyCluster { s.myCluster with icache := [], tcache := [] }
  else mapClusters s (fun k c => if scope = 2 ∧ k / 64 ≠ s.w.die then c else { c with icache := [], tcache := [] })

/-- The effect of a FENCE whose waits are over. -/
def fenceEffect (sc : BitVec 3) (k : BitVec 2) (s : State) : State :=
  if k = 1 ∧ 2 ≤ sc.toNat then dropAllEarly (dropL1 s) else if k = 3 then dropIcache s sc.toNat else s

/-- A fence: the queue wait (phase 0), then the ordering wait (phase 1), then its effect (R178, R359). -/
def fence (i : Instr) (ticks : Nat) (done : State → Bool) (eff : State → State) (s : State) : Out :=
  issueControl i { ticks := ticks, mem := true } s (fun s1 =>
    if s1.w.phase != some 1 && !s1.w.settled then .next (waiting i 0 s1)
    else if done s1 then .next (advance (eff s1))
    else .next (waiting i 1 s1))

/-- FENCE (R178, R179, R359). -/
def execFence (sc : BitVec 3) (k : BitVec 2) (s : State) : Out :=
  fence (.fence sc k) 2 (fun s1 => fenceDone s1 k) (fenceEffect sc k) s

/-- The paths of a mask. -/
def pathsOf (m : BitVec 5) : List Path :=
  (allPaths.zip (List.range 5)).filterMap (fun e => if m.getLsbD e.2 then some e.1 else none)

/-- Whether the ordering wait of an XFENCE is over (R180). -/
def xfenceDone (f : BitVec 5) (s : State) : Bool := (pathsOf f).all (pathDone s)

/-- The effect of an XFENCE whose waits are over (R180). -/
def xfenceEffect (sc : BitVec 3) (t : BitVec 5) (s : State) : State := if 2 ≤ sc.toNat ∧ t.getLsbD 0 then dropAllEarly (dropL1 s) else s

/-- XFENCE (R178, R180, R454): a control thread that waits makes no later access, so the wait covers every to-path. -/
def execXfence (sc : BitVec 3) (f t : BitVec 5) (s : State) : Out :=
  fence (.xfence sc f t) 4 (xfenceDone f) (xfenceEffect sc t) s

end Sys2Proof.Machine
end

