-- ==== Sys2Proof/Machine/VecMem.lean ====
section
/-! DEFINITION. Vector memory instructions over VL and VP-local, watermarks, and the landing of vector loads (R131, R154, R168,
R176, R184 to R188, R244 to R246, R302, R303, R338 to R340, R395 to R397, R405 to R408, R415 to R418, R433, R442, R452, R453). -/

namespace Sys2Proof.Machine

/-! ### Addresses of elements (R303) -/

/-- How the elements of a format M instruction are addressed. -/
inductive AddrMode where
  | unit
  | stride
  | index (v : Nat)
  deriving DecidableEq, Repr

/-- The addressing of VLD, VST and VAMO over VL. -/
def modeOf (x : BitVec 6) : AddrMode :=
  if x = 0 then .unit else if x.toNat < 32 then .stride else .index (x.toNat - 32)

/-- The address of element `i`. -/
def AddrMode.addr (t : AddrMode) (w : Wave) (base stride : U64) (i : Nat) : U64 :=
  match t with
  | .unit => base + BitVec.ofNat 64 (i * (w.ew / 8))
  | .stride => base + BitVec.ofNat 64 i * stride
  | .index v => base + BitVec.ofNat 64 (((w.reg v).elem i).toNat * (w.ew / 8))

/-- The path of an access over VL (R168). -/
def AddrMode.path : AddrMode → Path
  | .index _ => .gath
  | _ => .vec

/-- The index register that an addressing names. -/
def AddrMode.regs : AddrMode → List Nat
  | .index v => [v]
  | _ => []

/-! ### Issue over VL -/

/-- Sectors checked as the bound of an access over VL: its span (a unit-stride load or store) or count at MAXVL, none for the
scratchpad, in which an access whose base lies in the aperture counts (R128, R131). -/
def boundSectors (s : State) (t : AddrMode) (base : U64) (p : BitVec 2) (span : Bool) : Nat :=
  let n := s.w.cfg.maxvl
  if p = 3 ∨ n = 0 ∨ inAperture base.toNat then 0
  else if t = .unit ∧ span then (base.toNat + n * (s.w.ew / 8) - 1) / 32 - base.toNat / 32 + 1
  else n

/-- The scalar register that a stride names. -/
def strideReg (t : AddrMode) (x : BitVec 6) : List (BitVec 5) :=
  match t with
  | .stride => [BitVec.ofNat 5 x.toNat]
  | _ => []

/-- What a vector memory instruction asks at issue (R127, R128, R190, R210); `opr` tells that it reads the operation register
s(sb + 1). -/
def vmGate (roles : List Nat) (t : AddrMode) (b : BitVec 5) (x : BitVec 6) (p o : BitVec 2) (opr : Bool) (s : State) : Gate :=
  { roles := roles, queue := true, deps := b :: strideReg t x ++ (if opr then [b + 1] else [])
    ticks := 1 + ceilDiv s.w.cfg.maxvl 64, sectors := boundSectors s t (s.w.gs b) p (!opr)
    cls := if p = 3 then none else some (if o = 1 then 2 else 1) }

/-- A vector memory instruction in the control thread: its scalar operands are read at issue (R405); a last-use bit of an
index register that it does not name is ILLOP. -/
def issueVl (i : Instr) (roles : List Nat) (t : AddrMode) (b : BitVec 5) (x : BitVec 6) (k : BitVec 1) (p o : BitVec 2)
    (opr : Bool) (s : State) : Out :=
  if k = 1 ∧ t.regs = [] ∧ s.w.wait.isNone then .next (trapHere s 0x01)
  else
    let g := vmGate roles t b x p o opr s
    issueControl i g s (fun s1 =>
      enqueueNext i g (s1.w.gs b) (match strideReg t x with | r :: _ => s1.w.gs r | [] => 0) (if opr then s1.w.gs (b + 1) else 0) s1)

/-! ### Effect over VL (R244, R245) -/

/-- The active elements below VL. -/
def activeElems (w : Wave) (m : BitVec 1) : List Nat := (List.range w.cfg.vl).filter (w.active0 m)

/-- What a look at the active elements finds: the elements below the first faulting one with their targets, the first fault
with its cause, and the first element whose data or translation holds an uncorrectable error. -/
structure Scan where
  ok : List (Nat × Target) := []
  fault : Option (Nat × BitVec 8) := none
  ecc : Option Nat := none

/-- The first element of a list whose data or translation holds an uncorrectable error (R244). -/
def eccElem (poison : Nat → Target → Bool) (f : Nat → Except (BitVec 8) Target) (l : List Nat) : Option Nat :=
  l.find? (fun i => match f i with | .ok g => poison i g | .error c => c == 0x0F)

/-- The elements of a list looked at in ascending order, up to the first PAGE, ALIGN or PERM; an uncorrectable error counts whatever its
element's index (R244). -/
def scanElems (poison : Nat → Target → Bool) (f : Nat → Except (BitVec 8) Target) : List Nat → Scan
  | [] => {}
  | i :: t =>
    match f i with
    | .error c => if c = 0x0F then { ecc := some i } else { fault := some (i, c), ecc := eccElem poison f t }
    | .ok g => if poison i g then { ecc := some i } else
        let r := scanElems poison f t
        { r with ok := (i, g) :: r.ok }

/-- Check 11 of R286 over VL: ECC of any element, or a fault of the first active one. -/
def Scan.trap (r : Scan) (pol3 : Bool) (addr : Nat → U64) : Option (BitVec 8 × Nat × U64) :=
  match r.ecc with
  | some i => some (0x0F, i, eccAddr pol3 (addr i))
  | none =>
    match r.fault, r.ok with
    | some (k, c), [] => some (c, k, addr k)
    | _, _ => none

/-- VL truncated to the first faulting element: parked VPs at or above it become idle (R244). -/
def truncVl (s : State) (r : Scan) : State :=
  match r.fault with
  | none => s
  | some (k, _) => s.mapW (fun w => { w with cfg := { w.cfg with vl := k }, vps := w.vps.filter (fun e => decide (e.1 < k)) })

/-- The exact sectors of an access (R131): the span of a unit-stride one, otherwise one per element outside the scratchpad. -/
def exactSectors (t : AddrMode) (ew : Nat) (addr : Nat → U64) (l : List (Nat × Target)) : Nat :=
  let out := l.filter (fun e => e.2.isSector)
  match t, out.head?, out.getLast? with
  | .unit, some lo, some hi => ((addr hi.1).toNat + ew / 8 - 1) / 32 - (addr lo.1).toNat / 32 + 1
  | .unit, _, _ => 0
  | _, _, _ => out.length

/-- Releases of an access that did not truncate (R84): of its index register and, for a store, of its data register; none at VL = 0
(R75). -/
def vmRelease (r : Scan) (l : List Nat) (s : State) : State := if r.fault.isSome ∨ s.w.cfg.vl = 0 then s else s.mapW (fun w => w.releaseAll l)

/-- The traffic class of an access as a token class (R190). -/
def vmClass (o : BitVec 2) : Nat := if o = 1 then 2 else 1

/-- The tokens that an entry deducted at issue exchanged for what it takes (R191; log entry 31). -/
def settleTokens (e : QEntry) (c n : Nat) (s : State) : State :=
  if e.rsvS = n then s else s.setMyCluster ((s.myCluster.giveTokens s.w.asid c e.rsvS).takeTokens s.w.asid c n)

/-- The charge settled and the tokens with it (R129, R191): ticks from the VL before the truncation. -/
def vmSettle (w0 : Wave) (e : QEntry) (sectors : Nat) (o : BitVec 2) (s : State) : State :=
  settleTokens e (vmClass o) sectors (popEntry s (vlTicks w0) sectors)

/-- The addresses that an access over VL translates (R166). -/
def vmVas (pol3 : Bool) (n : Nat) (addr : Nat → U64) (l : List Nat) : List Nat := l.flatMap (fun i => walked pol3 n (addr i))

/-! ### Loads over VL -/

/-- The key of an element in a load buffer: its address and index (R154). -/
def earlyKey (va : U64) (i : Nat) : Nat := va.toNat * 8192 + i

/-- What an early-sent element holds. -/
def QEntry.sentEarly (e : QEntry) (va : U64) (i : Nat) : Option Early := e.early.bind (fun l => lkGet l (earlyKey va i))

/-- The current watermark link (R185). -/
def Wave.link (w : Wave) : Option (Nat × Wm) := w.wm.find? (fun e => e.2.cur)

/-- The value of the current watermark word, read through the BANK path (R187, R452); 0, which admits no element, while the wave's own
older atomic or a failed link holds the read (R169, R262). -/
def linkValue (s : State) (m : Wm) : Except (BitVec 8) Nat :=
  match packageTarget s Acc.load (m.waddr.setWidth 64) 8 with
  | .error c => .error c
  | .ok g =>
    if tripHeld s s.w.die g then .ok 0
    else if s.poisonedAt g then .error 0x0F
    else if mustWait s .bank s.sseq g 8 then .ok 0 else .ok (targetRead s s.w.team g 8)

/-- Whether an element of a linked load proceeds (R187). -/
def admits (m : Wm) (w : Nat) (va : U64) : Bool :=
  decide (va < m.base) || decide ((va - m.base).toNat / 2 ^ m.esz.toNat < w)

/-- The trap of a linked load whose watermark word cannot be read while an element waits (R187, R452). -/
def linkTrap (s : State) (o : BitVec 2) (addr : Nat → U64) (l : List (Nat × Target)) : Option (BitVec 8 × Nat × U64) :=
  if o != 2 then none
  else
    match s.w.link with
    | none => none
    | some (_, m) =>
      match linkValue s m with
      | .ok _ => none
      | .error c => (l.find? (fun x => !decide (addr x.1 < m.base))).map (fun x => (c, x.1, m.waddr.setWidth 64))

/-- Whether an element waits for its link at once. -/
def linkWaits (s : State) (o : BitVec 2) (va : U64) : Option Nat :=
  if o != 2 then none
  else
    match s.w.link with
    | none => none
    | some (n, m) =>
      match linkValue s m with
      | .ok w => if admits m w va then none else some n
      | .error _ => some n

/-- Check 7 of R286 for a load: its registers (R78), and a linked load without a link (R187). -/
def linkCheck (s : State) (e : QEntry) (o : BitVec 2) (regs : List Nat) : Option (BitVec 8 × Nat × U64) :=
  match nregCheck s e regs with
  | some x => some x
  | none => if o = 2 ∧ s.w.link.isNone then some (0x01, 0, e.pc) else none

/-- The trap of a vector load over VL. -/
def loadTrap (s : State) (p o : BitVec 2) (addr : Nat → U64) (r : Scan) : Option (BitVec 8 × Nat × U64) :=
  match linkTrap s o addr r.ok with
  | some t => if r.ecc.isNone && !(r.fault.isSome && r.ok.isEmpty) then some t else r.trap (p == 3) addr
  | none => r.trap (p == 3) addr

/-- What an element of a vector load finds: what its load buffer holds (R154), or its target now. -/
def QEntry.finds (e : QEntry) (addr : Nat → U64) (f : Nat → Except (BitVec 8) Target) (i : Nat) : Except (BitVec 8) Target :=
  match e.sentEarly (addr i) i with
  | some (.fault c) => .error c
  | some (.value g _) => .ok g
  | some (.forced g _) => .ok g
  | none => f i

/-- The walks that a linked load's look at its watermark word asks for. -/
def linkVas (w : Wave) (o : BitVec 2) : List Nat :=
  if o != 2 then [] else match w.link with | none => [] | some (_, m) => walked false 8 (m.waddr.setWidth 64)

/-- A vector load takes effect (R406): vd takes its tag, elements sent early land, the others are on their way. With an element
that waits for its link the entry stays at the head of the queue (R187). -/
def effLoad (t : AddrMode) (shared : Bool) (m : BitVec 1) (d : BitVec 6) (k : BitVec 1) (p o : BitVec 2) (e : QEntry) (s : State) : State :=
  let act := activeElems s.w m
  let addr := t.addr s.w e.x e.y
  let ew := s.w.ew
  let fresh (i : Nat) : Bool := (e.sentEarly (addr i) i).isNone
  let r := scanElems (fun i g => fresh i && s.poisonedAt g) (e.finds addr (fun i => resolve s Acc.load (p == 3) (addr i) (ew / 8))) act
  runEntry
    { cause := linkCheck s e o (d.toNat :: t.regs), reads := t.regs, writes := [d.toNat]
      replaces := act.length == s.w.cfg.vl, elems := some act, gath := t != .unit
      vas := vmVas (p == 3) (ew / 8) addr (act.filter fresh) ++ linkVas s.w o, late := fun s1 => loadTrap s1 p o addr r }
    (fun s0 =>
      let w0 := s0.w
      let waits := r.ok.any (fun x => (linkWaits s0 o (addr x.1)).isSome)
      let rel := if k = 1 then t.regs.filter (· != d.toNat) else []
      let land := r.ok.filter (fun x => fresh x.1)
      let got := r.ok.filterMap (fun x => ((e.sentEarly (addr x.1) x.1).bind Early.read?).map (fun y => (x.1, y.2)))
      let ls : List Load := land.map (fun x =>
        { sseq := s0.sseq, path := t.path, tgt := x.2, size := ew / 8, dst := .elem d.toNat x.1, va := addr x.1
          linked := linkWaits s0 o (addr x.1), grp := s0.sseq, shared := shared, acq := o == 1, drop := o == 1 && p != 3, pol := p.toNat
          direct := p == 3, gath := t != .unit, elem := x.1 })
      let sec := exactSectors t ew addr r.ok
      let s1 := truncVl s0 r
      let s2 := if waits then settleTokens e (vmClass o) sec s1 else vmSettle w0 e sec o s1
      let s3 := (nextSeq s2).mapW (fun w => { w.writeReg s0.free d.toNat got with vland := w.vland ++ ls })
      let s4 := if o = 2 then dropL1 s3 else if o = 1 ∧ ls = [] then dropAllEarly (if p = 3 then s3 else dropL1 s3) else s3
      if waits then
        s4.mapW (fun w => ((w.refund e.rsvT e.rsvS).deduct (vlTicks w0) sec).setHead
          { e with rsvT := vlTicks w0, rsvS := sec, z := if r.fault.isSome then 1 else 0 })
      else vmRelease r rel s4) s

/-- The registers that a linked load at the head of the queue releases when its last element is admitted. -/
def linkedRelease (e : QEntry) : List Nat :=
  let n := e.word.toNat
  let x := bits n 5 6
  let d := bits n 17 6
  let v := if opOf e.word = 0x90 then x - 32 else x
  if bits n 4 1 = 1 ∧ e.z = 0 ∧ (opOf e.word ≠ 0x90 ∨ 32 ≤ x) ∧ v ≠ d then [v] else []

/-- Whether two elements of a load have one read of one address in common (R188). -/
def Load.sharesWith (l x : Load) : Bool := l.shared && x.grp == l.grp && x.va == l.va

/-- The element of a linked load that waits with the lowest index. -/
def lowestWaiting (w : Wave) : Nat :=
  ((w.vland.filter (fun l => l.linked.isSome)).foldl (fun (b : Option Nat) l => some (match b with | none => l.elem | some i => min i l.elem)) none).getD 0

/-- An element of a linked load is admitted, with those that share its read (R187, R188); with the last one the load leaves the queue,
settled already. A watermark word that cannot be read traps with the lowest element that waits. -/
def admitLinked (k : Nat) (s : State) : State :=
  match s.w.vland[k]?, s.w.link with
  | some l, some (_, m) =>
    (match awaitWalks 1 (linkVas s.w 2) s with
     | some t => t
     | none =>
     match linkValue s m with
     | .error c =>
       raise (s.mapW (fun w => { w with vland := w.vland.filter (fun x => x.linked.isNone) }))
         { src := 2, cause := c, vp := lowestWaiting s.w, val := m.waddr.setWidth 64 }
     | .ok _ =>
       let s1 := dropL1 (s.mapW (fun w => { w with vland := (w.vland.zip (List.range w.vland.length)).map (fun x =>
         if x.2 = k ∨ l.sharesWith x.1 then { x.1 with linked := none } else x.1) }))
       if s1.w.vland.any (fun x => x.linked.isSome) then s1
       else
         match s1.w.vqNow with
         | [] => s1
         | e :: _ => s1.mapW (fun w => (w.releaseAll (linkedRelease e)).dropEntry))
  | _, _ => s

/-- Whether an element of a linked load can be admitted, or its watermark word faults or must still be translated. -/
def canAdmit (k : Nat) (s : State) : Bool :=
  match s.w.vland[k]?, s.w.link with
  | some l, some (_, m) =>
    l.linked.isSome && !s.w.trp.inh && s.w.isResident && !s.w.leaving &&
      ((awaitWalks 1 (linkVas s.w 2) s).isSome || (match linkValue s m with | .ok w => admits m w l.va | .error _ => true))
  | _, _ => false

/-- An element of a register set without a change of its tag. -/
def Wave.landElem (w : Wave) (v i : Nat) (x : U64) : Wave :=
  let r := w.reg v
  if r.st = .live ∧ i < r.tag then 
    let b := r.errors w.cfg.vl [i]
    w.setReg v { r with elems := spSet (0 : U64) r.elems i (BitVec.ofNat 64 (x.toNat % 2 ^ w.ew)), bad := b.1, since := b.2 }
  else w

/-- A value delivered to its place (R361, R396, R406); a VP's own goes into its latches too, while its block runs on (R86). -/
def deliver (s : State) (d : Dst) (x : U64) : State :=
  match d with
  | .none => s
  | .sreg r => setS s r x
  | .elem v i => s.mapW (fun w => w.landElem v i x)
  | .loc v i => s.mapW (fun w =>
      let w1 := w.landElem v i x
      if w.trp.inh || w.dbg.stopped then w1 else w1.pushLatch i (BitVec.ofNat 64 (x.toNat % 2 ^ w.ew)))

/-- Stores that send on an element of a load take its value (R173). -/
def sendOn (s : State) (l : Load) (v : U64) : State :=
  if s.w.reqs.any (fun r => r.src == some (l.sseq, l.elem)) then
    s.mapW (fun w => { w with reqs := w.reqs.map (fun r => if r.src = some (l.sseq, l.elem) then { r with op := .store v } else r) })
  else s

/-- What a load leaves behind of the load buffers when it is performed: nothing after an acquire (R175), nothing of its path after one on VEC
(R171), and nothing that shares a byte with it (R169). -/
def afterLoad (s : State) (l : Load) : State :=
  if l.acq then dropAllEarly s else if l.path = .vec then dropVecEarly s else dropSharing s l.tgt l.size

/-- A vector load's element performed (R406, R188): with VGATH.C every element of the address takes the value. -/
def landVector (k : Nat) (s : State) : State :=
  match s.w.vland[k]? with
  | none => s
  | some l =>
    let same (x : Load) : Bool := l.sharesWith x && x.linked.isNone
    let v : U64 := BitVec.ofNat 64 (loadValue s l.path l.sseq l.tgt l.size)
    let ls := l :: (s.w.vland.eraseIdx k).filter same
    let s1 := s.mapW (fun w => { w with vland := (w.vland.eraseIdx k).filter (fun x => !same x) })
    if s.poisonedAt l.tgt then raise s1 { src := 3, cause := 0x0F, val := eccAddr l.direct l.va }
    else
      let s2 := ls.foldl (fun y x => sendOn (deliver y x.dst v) x v) (afterLoad (l1Fill s1 l.pol l.tgt) l)
      if l.drop then dropL1 s2 else s2

/-! ### Stores, atomics and bank reductions over VL -/

/-- The elements of a store or bank operation sent on their path (R407, R396, R339). -/
def sendReqs (path : Path) (gath : Bool) (ew : Nat) (addr : Nat → U64) (l : List (Nat × Target)) (op : Nat → ReqOp) (dst : Nat → Dst)
    (src : Nat → Option (Nat × Nat)) (rel acq drop : Bool) (s : State) : State :=
  nextSeq ((l.foldl (fun y x => dropSharing y x.2 (ew / 8)) s).mapW (fun w => { w with reqs := w.reqs ++ l.map (fun x =>
    { sseq := s.sseq, grp := s.sseq, path := path, tgt := x.2, size := ew / 8, op := op x.1, dst := dst x.1, rel := rel, acq := acq
      drop := drop, va := addr x.1, src := src x.1, gath := gath }) }))

/-- The load on its way whose element a store of an element sends on (R173). -/
def Wave.sourceOf (w : Wave) (v i : Nat) : Option (Nat × Nat) :=
  (w.vland.find? (fun l => l.dst.isAt v i)).map (fun l => (l.sseq, l.elem))

/-- The registers whose elements a store may send on while loads of them are on their way: not where an atomic's results are. -/
def Wave.sendable (w : Wave) (v : Nat) : List Nat :=
  if w.reqs.any (fun r => r.dst.inReg v) || w.replies.any (fun r => r.dst.inReg v) then [] else [v]

/-- A vector store takes effect (R407). -/
def effStore (t : AddrMode) (m : BitVec 1) (d : BitVec 6) (dl k : BitVec 1) (p o : BitVec 2) (e : QEntry) (s : State) : State :=
  let act := activeElems s.w m
  let addr := t.addr s.w e.x e.y
  let ew := s.w.ew
  let regs := d.toNat :: t.regs
  let r := scanElems (fun _ _ => false) (fun i => resolve s Acc.store (p == 3) (addr i) (ew / 8)) act
  runEntry { cause := nregCheck s e regs, reads := regs, elems := some act, gath := t != .unit
             passOn := if t.regs.contains d.toNat then [] else s.w.sendable d.toNat
             vas := vmVas (p == 3) (ew / 8) addr act, late := fun _ => r.trap (p == 3) addr } (fun s0 =>
    let w0 := s0.w
    let data (i : Nat) : U64 := (w0.reg d.toNat).elem i
    let s1 := vmSettle w0 e (exactSectors t ew addr r.ok) o (truncVl s0 r)
    vmRelease r ((if dl = 1 then [d.toNat] else []) ++ (if k = 1 then t.regs else []))
      (sendReqs t.path (t != .unit) ew addr r.ok (fun i => .store (data i)) (fun _ => .none) (w0.sourceOf d.toNat) (o == 1) false false s1)) s

/-- The operation of an operation register (R338, R395). -/
def oprOp (z : U64) : Nat := bits z.toNat 0 4
/-- The scope of VAMO's operation register. -/
def oprScope (z : U64) : Nat := bits z.toNat 4 3

/-- What a VAMO asks of a leaf (R397). -/
def vamoAcc (ew : Nat) (z : U64) : Acc := if ew = 64 then atomicAcc (oprScope z) (oprOp z) else Acc.atomic

/-- The registers that a VAMO names: the data register, for CAS the comparand's, and the index register. -/
def vamoRegs (d : Nat) (z : U64) (idx : List Nat) : List Nat := d :: (if oprOp z = 1 then [d + 1] else []) ++ idx

/-- The checks of VAMO on its operation register and EW (R395). -/
def vamoBad (ew : Nat) (z : U64) : Option (BitVec 8) :=
  if 10 ≤ oprOp z ∨ 5 ≤ oprScope z then some 0x01 else if ew < 32 then some 0x02 else none

/-- VAMO over VL takes effect (R396). -/
def effVamo (t : AddrMode) (m : BitVec 1) (d : BitVec 6) (k : BitVec 1) (p o : BitVec 2) (e : QEntry) (s : State) : State :=
  let act := activeElems s.w m
  let addr := t.addr s.w e.x e.y
  let ew := s.w.ew
  let regs := vamoRegs d.toNat e.z t.regs
  let r := scanElems (fun _ g => s.poisonedAt g) (fun i => resolve s (vamoAcc ew e.z) (p == 3) (addr i) (ew / 8)) act
  let cause := match vamoBad ew e.z with
    | some 0x01 => some ((0x01 : BitVec 8), 0, e.pc)
    | c => (match nregCheck s e regs with | some x => some x | none => c.map (fun c => (c, 0, e.pc)))
  runEntry { cause := cause, reads := regs, writes := [d.toNat], elems := some act, gath := t != .unit
             vas := vmVas (p == 3) (ew / 8) addr act, late := fun _ => r.trap (p == 3) addr } (fun s0 =>
    let w0 := s0.w
    let val (v i : Nat) : U64 := (w0.reg v).elem i
    let s1 := vmSettle w0 e (exactSectors .stride ew addr r.ok) o (truncVl s0 r)
    let s2 := s1.mapW (fun w => w.writeReg s0.free d.toNat [])
    vmRelease r (if k = 1 then t.regs.filter (· != d.toNat) else [])
      (sendReqs t.path (t != .unit) ew addr r.ok (fun i => .bank (oprOp e.z) (val d.toNat i) (val (d.toNat + 1) i))
        (fun i => .elem d.toNat i) (fun _ => none) (o == 1) (o == 1) (o == 1 && p != 3) s2)) s

/-- The target of a BKRED element (R339): the aperture, cache policy 3 and a network window are PERM. -/
def bkredTarget (s : State) (p : BitVec 2) (va : U64) (n : Nat) : Except (BitVec 8) Target :=
  if bits va.toNat 60 4 != 0 then .error 0x05
  else if p = 3 ∨ inAperture va.toNat then .error 0x07
  else if va.toNat % n != 0 then .error 0x06
  else translate s s.w.asid s.w.sup Acc.atomic va.toNat

/-- BKRED takes effect (R338, R339). -/
def effBkred (m : BitVec 1) (d x : BitVec 6) (k : BitVec 1) (p o : BitVec 2) (e : QEntry) (s : State) : State :=
  let t : AddrMode := .index x.toNat
  let act := activeElems s.w m
  let addr := t.addr s.w e.x 0
  let ew := s.w.ew
  let op := oprOp e.z
  let regs := [d.toNat, x.toNat]
  let r := scanElems (fun _ g => s.poisonedAt g) (fun i => bkredTarget s p (addr i) (ew / 8)) act
  let cause : Option (BitVec 8 × Nat × U64) :=
    if op = 1 ∨ 11 ≤ op then some (0x01, 0, e.pc)
    else match nregCheck s e regs with
      | some y => some y
      | none => if ew < 32 ∨ (op = 10 ∧ ew = 64) then some (0x02, 0, e.pc) else none
  runEntry { cause := cause, reads := regs, elems := some act, vas := vmVas (p == 3) (ew / 8) addr act
             late := fun _ => r.trap (p == 3) addr } (fun s0 =>
    let w0 := s0.w
    let s1 := vmSettle w0 e (exactSectors t ew addr r.ok) o (truncVl s0 r)
    vmRelease r (if k = 1 then [x.toNat] else [])
      (sendReqs .bank false ew addr r.ok (fun i => .bank op ((w0.reg d.toNat).elem i) 0) (fun _ => .none) (fun _ => none) (o == 1) false false
        s1)) s

/-! ### VP-local accesses (R246, R396, R405, R418, R442) -/

/-- The address of a VP's element in a block (R303). -/
def localAddr (w : Wave) (b : BitVec 5) (x : BitVec 6) (v : Nat) : U64 := (AddrMode.index x.toNat).addr w (w.gs b) 0 v

/-- The VPs of a step whose accesses pass every check, and those that fault (R246). -/
def localScan (f : Nat → Except (BitVec 8) Target) (vps : List Nat) : List (Nat × Target) × List Nat :=
  (vps.filterMap (fun v => match f v with | .ok g => some (v, g) | .error _ => none),
   vps.filter (fun v => match f v with | .ok _ => false | .error _ => true))

/-- The ECC trap of a step: the first VP whose translation or, for a read, whose sector holds an uncorrectable error. -/
def localEcc (s : State) (reads pol3 : Bool) (f : Nat → Except (BitVec 8) Target) (addr : Nat → U64) (vps : List Nat) :
    Option (BitVec 8 × Nat × U64) :=
  (vps.find? (fun v => match f v with | .ok g => reads && s.poisonedAt g | .error c => c == 0x0F)).map (fun v => (0x0F, v, eccAddr pol3 (addr v)))

/-- Faulting VPs stop (R246), and the sectors of those that do not are charged (R127, R131, R191). -/
def localCharge (x : Issue) (o : BitVec 2) (r : List (Nat × Target) × List Nat) (s : State) : State :=
  let n := (r.1.filter (fun e => e.2.isSector)).length
  spendTokens (runSectors (s.mapW (fun w => r.2.foldl Wave.vpFault w)) x.run.id n) (vmClass o) n

/-- What a VP-local access waits for: older loads and acquires of the VEC path (R171, R175). -/
def localHold (s : State) : Bool := s.w.openLoads.any (fun l => decide (l.path = .vec)) || acquirePending s.w .vec s.sseq

/-- Whether a failed link holds one of the accesses of a step (R262). -/
def localTripHeld (s : State) (f : Nat → Except (BitVec 8) Target) (vps : List Nat) : Bool :=
  !s.pkg.failedLinks.isEmpty && vps.any (fun v => match f v with | .ok g => tripHeld s s.w.die g | .error _ => false)

/-- The sectors of a step's accesses (R131). -/
def localSectors (f : Nat → Except (BitVec 8) Target) (vps : List Nat) : Nat :=
  (vps.filter (fun v => match f v with | .ok g => g.isSector | .error _ => false)).length

/-- What a VP-local access asks of its issue step: `f` gives the targets of the VPs' accesses. -/
def localGate (w : Wave) (m : BitVec 1) (b : BitVec 5) (x : BitVec 6) (k : BitVec 1) (p o : BitVec 2) (f : Nat → Except (BitVec 8) Target)
    (act : List Nat) : BGate :=
  { m := m, reads := [x.toNat], dead := if k = 1 then [x.toNat] else [], xtraBad := o == 2, deps := [b], gath := true
    cls := if p = 3 then none else some (vmClass o), sects := localSectors f act
    vas := vmVas (p == 3) (w.ew / 8) (localAddr w b x) act }

/-- VP-local VLD (R406, R418). -/
def localLoad (i : Instr) (m : BitVec 1) (d : BitVec 6) (b : BitVec 5) (x : BitVec 6) (k : BitVec 1) (p o : BitVec 2) (s : State) : Out :=
  let tgt (s : State) (v : Nat) := resolve s Acc.load (p == 3) (localAddr s.w b x v) (s.w.ew / 8)
  issueBlock i (fun s y =>
    let act := activeVps s.w m y.vps
    { localGate s.w m b x k p o (tgt s) act with
      writes := [d.toNat]
      hold := localHold s || localTripHeld s (tgt s) act ||
        act.any (fun v => match tgt s v with | .ok g => mustWait s .vec s.sseq g (s.w.ew / 8) | .error _ => false)
      late := localEcc s true (p == 3) (tgt s) (localAddr s.w b x) act }) s (fun y s1 =>
    let r := localScan (tgt s1) (activeVps s1.w m y.vps)
    let vals := r.1.map (fun e => (e.1, (loadValue s1 .vec s1.sseq e.2 (s1.w.ew / 8), (0 : BitVec 5))))
    let s2 := putResults (localCharge y o r s1) d 0 vals
    let s3 := r.1.foldl (fun z e => l1Fill z p.toNat e.2) s2
    if o = 1 then dropAllEarly (if p = 3 then s3 else dropL1 s3) else dropVecEarly s3)

/-- VP-local VST (R407, R442): the stores enter the store queue at commit (R170). -/
def localStore (i : Instr) (m : BitVec 1) (d : BitVec 6) (dl : BitVec 1) (b : BitVec 5) (x : BitVec 6) (k : BitVec 1) (p o : BitVec 2)
    (s : State) : Out :=
  let tgt (s : State) (v : Nat) := resolve s Acc.store (p == 3) (localAddr s.w b x v) (s.w.ew / 8)
  issueBlock i (fun s y =>
    { localGate s.w m b x k p o (tgt s) (activeVps s.w m y.vps) with
      reads := [x.toNat, d.toNat]
      dead := (if k = 1 then [x.toNat] else []) ++ (if dl = 1 then [d.toNat] else [])
      idemBad := true
      late := localEcc s false (p == 3) (tgt s) (localAddr s.w b x) (activeVps s.w m y.vps) }) s (fun y s1 =>
    let r := localScan (tgt s1) (activeVps s1.w m y.vps)
    sendReqs .vec true s1.w.ew (localAddr s1.w b x) r.1 (fun v => .store ((s1.w.reg d.toNat).elem v)) (fun _ => .none) (fun _ => none)
      (o == 1) false false (localCharge y o r s1))

/-- VP-local VAMO (R396): each VP's atomic is sent, and the VP waits for its reply, which a network window may never give (R167). -/
def localVamo (i : Instr) (m : BitVec 1) (d : BitVec 6) (b : BitVec 5) (x : BitVec 6) (k : BitVec 1) (p o : BitVec 2) (s : State) : Out :=
  let opr (s : State) : U64 := s.w.gs (b + 1)
  let tgt (s : State) (v : Nat) := resolve s (vamoAcc s.w.ew (opr s)) (p == 3) (localAddr s.w b x v) (s.w.ew / 8)
  issueBlock i (fun s y =>
    { localGate s.w m b x k p o (tgt s) (activeVps s.w m y.vps) with
      reads := vamoRegs d.toNat (opr s) [x.toNat]
      writes := [d.toNat]
      deps := [b, b + 1]
      idemBad := true
      bad7 := vamoBad s.w.ew (opr s) == some 0x01
      bad9 := vamoBad s.w.ew (opr s) == some 0x02
      late := localEcc s true (p == 3) (tgt s) (localAddr s.w b x) (activeVps s.w m y.vps) }) s (fun y s1 =>
    let r := localScan (tgt s1) (activeVps s1.w m y.vps)
    let val (v j : Nat) : U64 := (s1.w.reg v).elem j
    sendReqs .vec true s1.w.ew (localAddr s1.w b x) r.1 (fun v => .bank (oprOp (opr s1)) (val d.toNat v) (val (d.toNat + 1) v))
      (fun v => .loc d.toNat v) (fun _ => none) (o == 1) (o == 1) (o == 1 && p != 3)
      ((localCharge y o r s1).mapW (fun w => w.writeReg s1.free d.toNat [])))

/-! ### The instructions -/

/-- Whether the machine's agent is a lane. -/
def onLane (s : State) : Bool :=
  match s.agent with
  | .lane _ _ => true
  | .control => false

/-- VLD (R417). -/
def execVld (m : BitVec 1) (d : BitVec 6) (b : BitVec 5) (x : BitVec 6) (k : BitVec 1) (p o : BitVec 2) (s : State) : Out :=
  if onLane s then localLoad (.vld m d b x k p o) m d b x k p o s
  else issueVl (.vld m d b x k p o) [0, 2, 3] (modeOf x) b x k p o false s

/-- VST (R442). -/
def execVst (m : BitVec 1) (d : BitVec 6) (l : BitVec 1) (b : BitVec 5) (x : BitVec 6) (k : BitVec 1) (p o : BitVec 2) (s : State) : Out :=
  if onLane s then localStore (.vst m d l b x k p o) m d l b x k p o s
  else issueVl (.vst m d l b x k p o) [0, 3] (modeOf x) b x k p o false s

/-- VAMO (R395). -/
def execVamo (m : BitVec 1) (d : BitVec 6) (b : BitVec 5) (x : BitVec 6) (k : BitVec 1) (p o : BitVec 2) (s : State) : Out :=
  if onLane s then localVamo (.vamo m d b x k p o) m d b x k p o s
  else issueVl (.vamo m d b x k p o) [0, 3] (modeOf x) b x k p o true s

/-- A lane reaches a vector memory instruction of the control class: the AIB trap, but ILLOP with order code 2, which is so on any format M
instruction inside a block (R176). -/
def laneRefusesVl (i : Instr) (o : BitVec 2) (s : State) : Out :=
  match currentIssue s with
  | none => .refused (.notEnabled "LANE")
  | some x => if o = 2 then .next (blockTrapHere s x 0x01) else laneRefuses i s

/-- A vector memory instruction of the control class. -/
def controlVl (i : Instr) (b : BitVec 5) (x : BitVec 6) (k : BitVec 1) (p o : BitVec 2) (opr : Bool) (s : State) : Out :=
  if onLane s then laneRefusesVl i o s else issueVl i [0, 3] (.index x.toNat) b x k p o opr s

/-- VGATH (R415). -/
def execVgath (m : BitVec 1) (d : BitVec 6) (b : BitVec 5) (x : BitVec 6) (k : BitVec 1) (p o : BitVec 2) (s : State) : Out :=
  controlVl (.vgath m d b x k p o) b x k p o false s

/-- VGATH.C (R415). -/
def execVgathC (m : BitVec 1) (d : BitVec 6) (b : BitVec 5) (x : BitVec 6) (k : BitVec 1) (p o : BitVec 2) (s : State) : Out :=
  controlVl (.vgathC m d b x k p o) b x k p o false s

/-- VSCAT (R433). -/
def execVscat (m : BitVec 1) (d : BitVec 6) (l : BitVec 1) (b : BitVec 5) (x : BitVec 6) (k : BitVec 1) (p o : BitVec 2) (s : State) : Out :=
  controlVl (.vscat m d l b x k p o) b x k p o false s

/-- BKRED (R338). -/
def execBkred (m : BitVec 1) (d : BitVec 6) (b : BitVec 5) (x : BitVec 6) (k : BitVec 1) (p o : BitVec 2) (s : State) : Out :=
  controlVl (.bkred m d b x k p o) b x k p o true s

/-! ### Watermarks -/

/-- WMLINK (R452): the word's address is checked at issue. -/
def execWmlink (n : BitVec 3) (a b : BitVec 5) (e : BitVec 2) (s : State) : Out :=
  let g : Gate := { roles := [0, 3], queue := true, deps := [a, b] }
  issueControl (.wmlink n a b e) g s (fun s1 =>
    let va := s1.w.gs a
    if bits va.toNat 60 4 != 0 then .next (trapAt s1 0x05 va)
    else if bits va.toNat 0 3 != 0 then .next (trapAt s1 0x06 va)
    else enqueueNext (.wmlink n a b e) g va (s1.w.gs b) 0 s1)

/-- WMLINK takes effect (R185): its link becomes the current one. -/
def effWmlink (n : BitVec 3) (e2 : BitVec 2) (e : QEntry) (s : State) : State :=
  runEntry {} (fun s0 => (popEntry s0 1 0).mapW (fun w =>
    let off := (List.range 8).foldl (fun l k => spSet ({} : Wm) l k { (spGet ({} : Wm) l k) with cur := false }) w.wm
    let l : Wm := { v := true, cur := true, esz := e2, waddr := BitVec.ofNat 60 e.x.toNat, base := e.y }
    { w with wm := spSet ({} : Wm) off n.toNat l })) s

/-- WMPUB (R453). -/
def execWmpub (a b : BitVec 5) (s : State) : Out :=
  let g : Gate := { roles := [0, 3], queue := true, deps := [a, b], ticks := 2, sectors := 1, cls := some 2 }
  issueControl (.wmpub a b) g s (fun s1 => enqueueNext (.wmpub a b) g (s1.w.gs a) (s1.w.gs b) 0 s1)

/-- WMPUB takes effect (R186, R453): its maximum is sent to the home bank, a release on BANK. -/
def effWmpub (e : QEntry) (s : State) : State :=
  let t := packageTarget s Acc.atomic e.x 8
  let late : Option (BitVec 8 × Nat × U64) :=
    match t with
    | .error c => some (c, 0, e.x)
    | .ok g => if s.poisonedAt g then some (0x0F, 0, e.x) else none
  runEntry { vas := walked false 8 e.x, late := fun _ => late } (fun s0 =>
    match t with
    | .error _ => s0
    | .ok g => sendReqs .bank false 64 (fun _ => e.x) [(0, g)] (fun _ => .bank 9 e.y 0) (fun _ => .none) (fun _ => none) true false false
        (popEntry s0 2 1)) s

/-! ### Early loads (R154) -/

/-- Whether an entry is an acquire, or changes the width of elements. -/
def holdsEarly (e : QEntry) : Bool :=
  let op := opOf e.word
  (decide (op = 0x90 ∨ op = 0x92 ∨ op = 0x93) && bits e.word.toNat 0 2 == 1) || op == 0x40

/-- Whether an entry is a vector load that may be sent early, in the sense of R154; on the VEC path no older load may be on its way
(R171). -/
def earlyReady (s : State) (k : Nat) : Bool :=
  match s.w.vq[k]? with
  | none => false
  | some e =>
    let op := opOf e.word
    decide (op = 0x90 ∨ op = 0x92 ∨ op = 0x93) && bits e.word.toNat 0 2 != 2 && e.early.isNone && s.w.isResident && !s.w.trp.inh &&
      s.w.vps.all (fun v => match v.2 with | .thread _ => false | .run _ _ _ _ b => !b | _ => true) &&
      (s.w.vq.take k).all (fun q => (opOf q.word == 0xB7 || !writesMemory s q) && !holdsEarly q) &&
      s.w.fetches.all (fun f => !fetchWrites s f) &&
      s.w.runs.all (fun r => r.words.all (fun x => opOf x != 0x91 && opOf x != 0x95)) &&
      s.w.reqs.all (fun r => !r.acq) && s.w.openLoads.all (fun l => !l.acq && (!e.onVec || l.path != .vec))

/-- What an element of a load finds when it is sent now: its value, or a fault that is kept; nothing while a walk, its own older access or
a failed link holds it back, or where an error is found. -/
def earlyElem (s : State) (p : Path) (pol3 : Bool) (va : U64) : Option Early :=
  let n := s.w.ew / 8
  if (walked pol3 n va).any (misses s) then none
  else
    match resolve s Acc.load pol3 va n with
    | .error c => if c = 0x0F then none else some (.fault c)
    | .ok g =>
      if s.poisonedAt g || mustWait s p s.sseq g n || tripHeld s s.w.die g then none
      else some (.value g (BitVec.ofNat 64 (loadValue s p s.sseq g n)))

/-- The load buffer of an entry filled with what its elements read now; with policy 0 their sectors enter L1 (R152). -/
def sendEarly (k : Nat) (s : State) : State :=
  match s.w.vq[k]? with
  | none => s
  | some e =>
    let n := e.word.toNat
    let x : BitVec 6 := BitVec.ofNat 6 (n / 32)
    let t := if opOf e.word = 0x90 then modeOf x else .index x.toNat
    let addr := t.addr s.w e.x e.y
    let got := (List.range s.w.cfg.vl).filterMap (fun i => (earlyElem s t.path (bits n 2 2 == 3) (addr i)).map (fun y => (i, y)))
    let l := got.foldl (fun l y => lkSet l (earlyKey (addr y.1) y.1) y.2) []
    let s1 := got.foldl (fun z y => match y.2 with | .value g _ => l1Fill z (bits n 2 2) g | _ => z) s
    s1.mapW (fun w => { w with vq := w.vq.set k { e with early := some l } })

end Sys2Proof.Machine
end

