-- ==== Sys2Proof/Machine/Engines.lean ====
section
/-! DEFINITION. Barriers, bulk copies, command lists and work-distributor requests (R131, R181 to R184, R214, R215, R331 to R333,
R335 to R337, R347, R350, R351, R451, R472). -/

namespace Sys2Proof.Machine

/-! ### Barriers (R181, R182, R331) -/

/-- The scratchpad offset that a barrier operand names. -/
def barrierForm (x : U64) : Nat := if bits x.toNat 40 24 = 0xFFFFF then bits x.toNat 0 40 else x.toNat

/-- The offset of a barrier operand, checked (R331). -/
def barrierOff (s : State) (x : U64) : Except (BitVec 8) Nat :=
  if bits x.toNat 60 4 != 0 then .error 0x05
  else if barrierForm x % 8 != 0 then .error 0x06
  else if s.myTeam.bytes ≤ barrierForm x then .error 0x05
  else .ok (barrierForm x)

/-- Credits applied to a barrier word's fields (R182): the phases completed toggle PHASE, the excess carries over. -/
def creditWord (v c : Nat) : Nat :=
  let phase := bits v 63 1
  let expect := bits v 32 31
  let arrived := bits v 0 31
  if expect = 0 then phase * 2 ^ 63 + min (arrived + c) (2 ^ 31 - 1)
  else (phase + (arrived + c) / expect) % 2 * 2 ^ 63 + expect * 2 ^ 32 + (arrived + c) % expect

/-- A wave of the machine changed, wherever it stands. -/
def State.updWave (s : State) (id : Nat) (f : Wave → Wave) : State :=
  { s with w := if s.w.id = id then f s.w else s.w, others := s.others.map (fun w => if w.id = id then f w else w) }

/-- A trap with SRC 3 raised on a wave, wherever it stands; an ended one takes none. -/
def raiseOn (s : State) (id : Nat) (cause : BitVec 8) (val : U64) : State :=
  s.updWave id (fun w => if w.isGone then w else { w with traps := w.traps ++ [{ src := 3, cause := cause, val := val }] })

/-- The phases that a credit completes (R182). -/
def phasesDone (v c : Nat) : Nat := if bits v 32 31 = 0 then 0 else (bits v 0 31 + c) / bits v 32 31

/-- A barrier word after a credit stored: where the credit completes several phases, the word after an odd number of them first, which a
BWAIT sees (R182, R347). -/
def storeCredit (s : State) (team off c : Nat) : State :=
  let v := spRead s team off 8
  let x := creditWord v c
  let y := bits x 0 63 + (bits v 63 1 + 1) % 2 * 2 ^ 63
  spWrite (if 2 ≤ phasesDone v c then spWrite s team off 8 y else s) team off 8 x

/-- A credit to a barrier of a team, for an access of wave `id` (R182); a team whose scratchpad was discarded receives none (R205). A word
that holds an uncorrectable error, or an image that cannot be reached, raises a trap on that wave and is not written (R253, R163). -/
def credit (s : State) (id team off c : Nat) : State :=
  if (s.team team).bytes ≤ off then s
  else
    match spFault s team Acc.atomic off 8 with
    | some (x, va) => raiseOn s id x va
    | none =>
      if (s.team team).cl.isSome && (s.team team).bad.contains (off / 8) then raiseOn s id 0x0F (eccAddr true (BitVec.ofNat 64 off))
      else storeCredit s team off c

/-- BARINIT (R332). -/
def execBarinit (a b : BitVec 5) (s : State) : Out :=
  issueControl (.barinit a b) { deps := [a, b], ticks := 2, mem := true } s (fun s1 =>
    let n := (s1.w.gs b).toNat
    if n = 0 ∨ 2 ^ 31 ≤ n then .next (trapHere s1 0x01)
    else
      match barrierOff s1 (s1.w.gs a) with
      | .error c => .next (trapAt s1 c (s1.w.gs a))
      | .ok off => .next (advance (spWrite s1 s1.w.team off 8 (n * 2 ^ 32))))

/-- BARRIVE (R333). -/
def execBarrive (sc : BitVec 3) (a : BitVec 5) (c : BitVec 16) (s : State) : Out :=
  let g : Gate := { queue := true, deps := [a], ticks := 2 }
  issueControl (.barrive sc a c) g s (fun s1 =>
    match barrierOff s1 (s1.w.gs a) with
    | .error e => .next (trapAt s1 e (s1.w.gs a))
    | .ok off => enqueueNext (.barrive sc a c) g (BitVec.ofNat 64 off) 0 0 s1)

/-- A marker takes effect (R184): it will fire when the stores before it are visible. -/
def effBarrive (e : QEntry) (s : State) : State :=
  runEntry {} (fun s0 => nextSeq ((popEntry s0 2 0).mapW (fun w =>
    { w with markers := w.markers ++ [{ e with z := BitVec.ofNat 64 s0.sseq }] }))) s

/-- Whether the oldest marker may fire (R184): every store and atomic of VEC and GATH before it is performed. -/
def markerReady (s : State) : Bool :=
  match s.w.markers with
  | [] => false
  | e :: _ => s.w.reqs.all (fun r => !(decide (r.path = .vec ∨ r.path = .gath) && decide (r.sseq < e.z.toNat)))

/-- The oldest marker fires once. -/
def fireMarker (s : State) : State :=
  match s.w.markers with
  | [] => s
  | e :: t => credit (s.mapW (fun w => { w with markers := t })) s.w.id s.w.team e.x.toNat (bits e.word.toNat 0 16)

/-- Whether a BWAIT on a phase may complete (R183). -/
def phaseDone (s : State) (off : Nat) (p : BitVec 1) : Bool := bits (spRead s s.w.team off 8) 63 1 != p.toNat

/-- The completion of a BWAIT: an acquire on every path (R183). -/
def bwaitEffect (s : State) : State := advance (dropAllEarly (dropL1 s))

/-- BWAIT (R347): phase 1 of its wait is a phase that it has seen change (R183); a word with an uncorrectable error traps (R253). -/
def execBwait (a : BitVec 5) (p : BitVec 1) (s : State) : Out :=
  issueControl (.bwait a p) { deps := [a], ticks := 2, mem := true } s (fun s1 =>
    if s1.w.phase = some 1 then .next (bwaitEffect s1)
    else
      match barrierOff s1 (s1.w.gs a) with
      | .error c => .next (trapAt s1 c (s1.w.gs a))
      | .ok off =>
        if s1.myTeam.bad.contains (off / 8) then .next (trapAt s1 0x0F (eccAddr true (BitVec.ofNat 64 off)))
        else if phaseDone s1 off p then .next (bwaitEffect s1)
        else .next (waiting (.bwait a p) 0 s1))

/-! ### Bulk copies (R335, R336) -/

/-- Sectors of one side of a copy (R131). -/
def sideSectors (va : U64) (n : Nat) : Nat := if inAperture va.toNat then 0 else ceilDiv n 32

/-- S of a copy (R335). -/
def copySectors (dst src : U64) (n : Nat) : Nat := sideSectors src n + sideSectors dst n

/-- The address of the first byte of a scratchpad range outside the team's scratchpad (R472). -/
def rangeBad (s : State) (va : U64) (n : Nat) : Option U64 :=
  let off := bits va.toNat 0 40
  if inAperture va.toNat ∧ n ≠ 0 ∧ s.myTeam.bytes < off + n then
    some (if s.myTeam.bytes ≤ off then va else va + BitVec.ofNat 64 (s.myTeam.bytes - off))
  else none

/-- Whether a range starts in a network window. -/
def inWindow (s : State) (va : U64) : Bool :=
  !inAperture va.toNat && (match lookup s s.w.asid va.toNat with | .ok (e, _) => bits e 7 1 == 1 | .error _ => false)

/-- The checks of R335 from order 2 on, the barrier operand excepted: the cause and EVAL of the first failure. -/
def copyBad (s : State) (dst src : U64) (n : Nat) : Option (BitVec 8 × U64) :=
  if 2 ^ 31 ≤ n then some (0x01, s.w.pc)
  else if bits dst.toNat 60 4 != 0 then some (0x05, dst)
  else if bits src.toNat 60 4 != 0 then some (0x05, src)
  else
    match rangeBad s dst n, rangeBad s src n with
    | some x, _ => some (0x05, x)
    | none, some x => some (0x05, x)
    | none, none => if inWindow s dst && inWindow s src then some (0x07, dst) else none

/-- The barrier of a copy (R331): none for s0. -/
def copyBarrier (s : State) (b : BitVec 5) : Except (BitVec 8) (Option U64) :=
  if b = 0 then .ok none
  else
    match barrierOff s (s.w.gs b) with
    | .error c => .error c
    | .ok off => .ok (some (BitVec.ofNat 64 off))

/-- A command of the focused wave. -/
def copyCmd (s : State) (dst src : U64) (n : Nat) (bar : Option U64) (pol : Nat) : Bulk :=
  { wave := s.w.id, team := s.w.team, asid := s.w.asid, sup := s.w.sup, dst := dst, src := src, count := n, bar := bar, pol := pol }

/-- Commands entered in the engine in their order; one with a count of 0 copies and credits nothing (R335). -/
def enterCopies (s : State) (l : List Bulk) : State :=
  s.setMyCluster { s.myCluster with bulk := s.myCluster.bulk ++ l.filter (fun b => b.count != 0) }

/-- Whether the engine has room for `n` more commands (R336). -/
def engineRoom (s : State) (n : Nat) : Bool := decide (s.myCluster.bulk.length + n ≤ 64)

/-- The translations that the check for two windows needs (R335, order 4). -/
def copyVas (dst src : U64) : List Nat :=
  if inAperture dst.toNat || inAperture src.toNat then [] else walked false 1 dst ++ walked false 1 src

/-- What BCOPY asks at issue; a full engine stalls it (R336). -/
def bcopyGate (s : State) (d a c b : BitVec 5) : Gate :=
  let n := copySectors (s.w.gs d) (s.w.gs a) (s.w.gs c).toNat
  { roles := [0, 1], deps := [d, a, c, b], ticks := 2 + n, sectors := n, cls := some 0, full := !engineRoom s 1, mem := true
    vas := copyVas (s.w.gs d) (s.w.gs a) }

/-- BCOPY (R335, R336). -/
def execBcopy (d a c b : BitVec 5) (p : BitVec 2) (s : State) : Out :=
  issueControl (.bcopy d a c b p) (bcopyGate s d a c b) s (fun s1 =>
    let dst := s1.w.gs d
    let src := s1.w.gs a
    let n := (s1.w.gs c).toNat
    match copyBad s1 dst src n with
    | some (x, v) => .next (trapAt s1 x v)
    | none =>
      match copyBarrier s1 b with
      | .error x => .next (trapAt s1 x (s1.w.gs b))
      | .ok bar => .next (advance (enterCopies s1 [copyCmd s1 dst src n bar p.toNat])))

/-! ### Command lists (R350, R351) -/

/-- A command of a list: destination, source, count, barrier and cache policy. -/
structure Cmd where
  dst : U64
  src : U64
  count : Nat
  bar : Option U64
  pol : Nat

/-- A doubleword of the list read as a load of the wave: its value, a fault, or none while it must wait. -/
def listRead (s : State) (va : U64) : Except (BitVec 8) (Option Nat) :=
  match resolve s Acc.load false va 8 with
  | .error c => .error c
  | .ok g =>
    if s.poisonedAt g then .error 0x0F
    else if tripHeld s s.w.die g || mustWait s .vec s.sseq g 8 || acquirePending s.w .vec s.sseq then .ok none
    else .ok (some (loadValue s .vec s.sseq g 8))

/-- The doublewords of a list: the values, or the first fault with its address, or none while a read must wait. -/
def listWords (s : State) (va : U64) : Nat → Except (BitVec 8 × U64) (Option (List Nat))
  | 0 => .ok (some [])
  | n + 1 =>
    match listRead s va with
    | .error c => .error (c, va)
    | .ok none => .ok none
    | .ok (some v) =>
      match listWords s (va + 8) n with
      | .error e => .error e
      | .ok none => .ok none
      | .ok (some l) => .ok (some (v :: l))

/-- Descriptor `k` of a list. -/
def cmdOf (l : List Nat) (k : Nat) : Cmd :=
  { dst := BitVec.ofNat 64 (l.getD (4 * k) 0), src := BitVec.ofNat 64 (l.getD (4 * k + 1) 0)
    count := bits (l.getD (4 * k + 2) 0) 0 31
    bar := if bits (l.getD (4 * k + 3) 0) 63 1 = 1 then some (BitVec.ofNat 64 (bits (l.getD (4 * k + 3) 0) 0 40)) else none
    pol := bits (l.getD (4 * k + 2) 0) 32 2 }

/-- The checks of a descriptor (R351, step 4): the cause of the first failure. -/
def cmdBad (s : State) (l : List Nat) (k : Nat) : Option (BitVec 8) :=
  let d2 := l.getD (4 * k + 2) 0
  let d3 := l.getD (4 * k + 3) 0
  let c := cmdOf l k
  if bits d2 34 30 != 0 || bits d2 31 1 != 0 || bits d2 32 2 == 3 || bits d3 40 23 != 0 ||
      (bits d3 63 1 == 0 && bits d3 0 40 != 0) then some 0x01
  else
    match copyBad s c.dst c.src c.count with
    | some (x, _) => some x
    | none =>
      match c.bar with
      | none => none
      | some off => (match barrierOff s off with | .error x => some x | .ok _ => none)

/-- Ticks and sectors of a list (R351, step 5). -/
def listCharge (cs : List Cmd) : Nat × Nat :=
  cs.foldl (fun x c => (x.1 + 2 + copySectors c.dst c.src c.count, x.2 + copySectors c.dst c.src c.count)) (2, 0)

/-- The addresses of a list's doublewords. -/
def listVas (va : U64) (n : Nat) : List U64 := (List.range (4 * n)).map (fun k => va + BitVec.ofNat 64 (8 * k))

/-- What reading the list leaves: L1 copies of its sectors, for the reads have policy 0 (R351, R152), and no older value in the load buffers
of its path (R171). -/
def listFill (s : State) (va : U64) (n : Nat) : State :=
  dropVecEarly ((listVas va n).foldl (fun x v => match resolve s Acc.load false v 8 with | .ok g => l1Fill x 0 g | .error _ => x) s)

/-- The commands of a CMDB enter the engine, or wait for room for all of them (R351, steps 6 and 7). -/
def cmdbEnter (a b : BitVec 5) (s : State) : State :=
  if engineRoom s s.w.cmdb.length then advance ((enterCopies s s.w.cmdb).mapW (fun w => { w with cmdb := [] }))
  else waiting (.cmdb a b) 1 s

/-- A list that has been read and checked: the budget check and the BULK bucket, then the commands are the wave's (R351, R191). -/
def cmdbTake (a b : BitVec 5) (s : State) (cs : List Cmd) : State :=
  let q := listCharge cs
  let g : Gate := { ticks := q.1, sectors := q.2, cls := some 0 }
  match gateStall g s with
  | some why => stalled why s
  | none =>
    match gateShort g s with
    | some c => exhausted s c
    | none => cmdbEnter a b (s.mapW (fun w => { w.deduct q.1 q.2 with cmdb := cs.map (fun c => copyCmd s c.dst c.src c.count c.bar c.pol) }))

/-- CMDB with its list (R351, steps 3 to 5): it waits for the translations that it needs (R166). -/
def cmdbList (a b : BitVec 5) (s : State) : State :=
  let n := (s.w.gs b).toNat
  match awaitWalks 0 ((listVas (s.w.gs a) n).flatMap (walked false 8)) s with
  | some t => t
  | none =>
    match listWords s (s.w.gs a) (4 * n) with
    | .error (c, v) => trapAt s c v
    | .ok none => s
    | .ok (some l) =>
      match awaitWalks 0 ((List.range n).flatMap (fun k => copyVas (cmdOf l k).dst (cmdOf l k).src)) s with
      | some t => t
      | none =>
        let s1 := listFill s (s.w.gs a) n
        match (List.range n).findSome? (fun k => (cmdBad s1 l k).map (fun c => (c, k))) with
        | some (c, k) => trapAt s1 c (s.w.gs a + BitVec.ofNat 64 (32 * k))
        | none => cmdbTake a b s1 ((List.range n).map (cmdOf l))

/-- A CMDB that waits goes on: in phase 0 for its list, in phase 1 for room. -/
def cmdbGo (a b : BitVec 5) (s : State) : State := if s.w.phase = some 1 then cmdbEnter a b s else cmdbList a b s

/-- CMDB (R350, R351): the count and the list address at issue, then the list when it has been read. -/
def execCmdb (a b : BitVec 5) (s : State) : Out :=
  issueControl (.cmdb a b) { roles := [0, 1], deps := [a, b], ticks := 0, mem := true } s (fun s1 =>
    if s1.w.phase.isSome then .next (cmdbGo a b s1)
    else if s1.w.gs b = 0 then
      (match gateShort { ticks := 2 } s1 with
       | some c => .next (exhausted s1 c)
       | none => .next (advance (s1.mapW (fun w => w.deduct 2 0))))
    else if 64 < (s1.w.gs b).toNat then .next (trapHere s1 0x01)
    else if bits (s1.w.gs a).toNat 0 5 ≠ 0 then .next (trapAt s1 0x06 (s1.w.gs a))
    else .next (waiting (.cmdb a b) 0 s1))

/-! ### Work-distributor requests (R214, R215, R451) -/

/-- WDQ (R215, R451, R254): one request is sent, on the BULK path of its wave (R168). -/
def execWdq (a b c : BitVec 5) (s : State) : Out :=
  issueControl (.wdq a b c) { deps := [a, b, c], ticks := 2, sectors := 1, cls := some 2, vas := walked false 16 (s.w.gs a) } s (fun s1 =>
    match packageTarget s1 Acc.atomic (s1.w.gs a) 16 with
    | .error e => .next (trapAt s1 e (s1.w.gs a))
    | .ok g =>
      match barrierOff s1 (s1.w.gs b) with
      | .error e => .next (trapAt s1 e (s1.w.gs b))
      | .ok ans =>
        match barrierOff s1 (s1.w.gs c) with
        | .error e => .next (trapAt s1 e (s1.w.gs c))
        | .ok bar =>
          if s1.poisonedAt g then .next (trapAt s1 0x0F (s1.w.gs a))
          else
            let q : Wdq := { wave := s1.w.id, team := s1.w.team, desc := g.loc.2, ans := ans, bar := bar, va := s1.w.gs a }
            let s2 := spendTokens s1 2 1
            .next (advance { s2 with wdq := s2.wdq ++ [q] }))

end Sys2Proof.Machine
end

