-- ==== Sys2Proof/Machine/Power.lean ====
section
/-! DEFINITION. The power estimate of a cluster and of a die, and the work that a die delays to stay within its grant (R283, R284). -/

namespace Sys2Proof.Machine

/-- Whether a lane of a wave has work to issue. -/
def Wave.anyLane (w : Wave) : Bool := (List.range w.lanes).any (fun j => (w.nextVp j).isSome)

/-- Whether an instruction of the matrix unit multiplies: MMA, MMAS or MSCACC, with the epilogue of those that have one (R283). -/
def isMac (w : BitVec 32) : Bool := opOf w == 0xB2 || opOf w == 0xB3 || opOf w == 0xB4

/-- Whether a wave has the matrix unit at such work. -/
def Wave.multiplies (w : Wave) : Bool := w.mat.any (fun e => isMac e.word)

/-- The estimate of a cluster in tenths of an ampere (R283). -/
def clusterDraw (s : State) (die cl : Nat) : Nat :=
  let ws := s.residents die cl
  12 + (if ws.isEmpty then 0 else 16) + (if ws.any Wave.anyLane then 65 else 0) + (if ws.any Wave.multiplies then 75 else 0)

/-- A die's estimate in tenths of an ampere. -/
def dieRequest (s : State) (die : Nat) : Nat := (List.range (s.die die).encl).foldl (fun x c => x + clusterDraw s die c) 0

/-- The clusters whose matrix unit is at work, or has been started in this interval. -/
def matrixClusters (s : State) : List Nat :=
  ((s.waves.filter (fun w => w.isResident && w.multiplies)).map (fun w => clKey w.die w.cl) ++ s.pkg.power.started).eraseDups

/-- Whether work that would raise the estimate of the focused wave's die by `more` tenths of an ampere would leave its grant; a die that
has taken no grant yet is not held. -/
def overGrant (s : State) (more : Nat) : Bool :=
  match lkGet s.pkg.power.limits s.w.die with
  | none => false
  | some g => decide (10 * g < dieRequest s s.w.die + more)

/-- Whether the focused wave's cluster would start matrix work after an interval or more without any. -/
def startsMatrix (s : State) : Bool :=
  !(matrixClusters s).contains (clKey s.w.die s.w.cl) && !s.pkg.power.recent.contains (clKey s.w.die s.w.cl)

/-- The clusters of the focused wave's die that have started matrix work in this interval. -/
def startedHere (s : State) : Nat := (s.pkg.power.started.filter (fun k => k / 64 == s.w.die)).length

/-- Whether a matrix instruction is delayed (R284): it would leave the grant, or start the ninth cluster of the die in an interval. -/
def matrixDelayed (s : State) (word : BitVec 32) : Bool :=
  isMac word && !(s.residents s.w.die s.w.cl).any Wave.multiplies && (overGrant s 75 || (startsMatrix s && decide (8 ≤ startedHere s)))

/-- Whether a lockstep block is delayed (R284): its lanes would leave the grant. -/
def blockDelayed (s : State) : Bool := !(s.residents s.w.die s.w.cl).any Wave.anyLane && overGrant s 65

/-- Matrix work noted for the interval (R284). -/
def noteMatrix (s : State) (word : BitVec 32) : State :=
  if isMac word && startsMatrix s then
    { s with pkg := { s.pkg with power := { s.pkg.power with started := clKey s.w.die s.w.cl :: s.pkg.power.started } } }
  else s

end Sys2Proof.Machine
end

