-- ==== Sys2Proof/Machine/Matrix.lean ====
section
/-! DEFINITION. The matrix unit: ownership, tiles, MMA, MMAS, MSCACC, MMOV, MZERO, MSAVE, MREST and the epilogue (R110, R118, R119,
R211 to R213, R216 to R232, R362, R364 to R366, R368, R369, R371). -/

namespace Sys2Proof.Machine

/-! ### Tiles (R216) -/

/-- The place of a tile's word in the list of tile words. -/
def tileKey (t i j : Nat) : Nat := t * 4096 + 64 * i + j

/-- A word of a tile. -/
def Wave.tile (w : Wave) (t i j : Nat) : Nat := (spGet (0 : BitVec 32) w.tiles (tileKey t i j)).toNat

/-- A word of a tile written. -/
def Wave.setTile (w : Wave) (t i j v : Nat) : Wave :=
  { w with tiles := spSet (0 : BitVec 32) w.tiles (tileKey t i j) (BitVec.ofNat 32 v) }

/-- Words of a row written from column `j` on. -/
def Wave.setRow (w : Wave) (t i j : Nat) : List Nat → Wave
  | [] => w
  | v :: l => (w.setTile t i j v).setRow t i (j + 1) l

/-- The element that holds column `j` of a per-column operand (R218). -/
def vpOf (j : Nat) : Nat := 16 * (j % 16 / 4) + 4 * (j / 16) + j % 4

/-- The rows of an instruction that starts at `lo`: below min(VL, 64), and with rm those that m0 selects (R220). -/
def Wave.rows (w : Wave) (lo : Nat) (rm : BitVec 1) : List Nat :=
  (List.range (min w.cfg.vl 64)).filter (fun i => decide (lo ≤ i) && w.active0 rm i)

/-! ### Format pairs (R217, R218) -/

/-- Whether a pair has integer words. -/
def pairInt (f : BitVec 4) : Bool := decide (f.toNat ≤ 1)
/-- wA. -/
def wA (f : BitVec 4) : Nat := if pairInt f then 8 else 16
/-- wB. -/
def wB (f : BitVec 4) : Nat := if f = 0 then 8 else if f = 1 then 4 else 16
/-- K. -/
def depthK (f : BitVec 4) : Nat := if pairInt f then 32 else 16
/-- The floating format of a pair. -/
def pairFmt (f : BitVec 4) : Fmt := if f = 2 then .f16 else .e8m7

/-- Value `k` of width `n` in element `e` of a group of registers from `g` (R218). -/
def packed (w : Wave) (g n e k : Nat) : Nat := bits ((w.reg (g + k * n / 32)).elem e).toNat (k * n % 32) n

/-! ### One output element (R118) -/

/-- A term of an exact sum: a NaN (with NV), an infinity, or an exact number with the sign of its zero. -/
inductive Term where
  | nan (nv : Bool)
  | inf (neg : Bool)
  | fin (neg : Bool) (x : Ex)

/-- A value as a term. -/
def termOf : FVal → Term
  | .nan s => .nan s
  | .inf n => .inf n
  | .fin n m e => .fin n (Ex.of n m e)

/-- The product of two terms. -/
def Term.mul : Term → Term → Term
  | .nan a, .nan b => .nan (a || b)
  | .nan a, _ => .nan a
  | _, .nan b => .nan b
  | .inf a, .inf b => .inf (a != b)
  | .inf a, .fin b y => if y.m = 0 then .nan true else .inf (a != b)
  | .fin a x, .inf b => if x.m = 0 then .nan true else .inf (a != b)
  | .fin a x, .fin b y => .fin (a != b) (x.mul y)

/-- The sum of terms rounded once to FP32 with RNE (R106, R118): an exact zero is −0 only when every term is negative. -/
def sumTerms (l : List Term) : Nat × BitVec 5 :=
  let nan := l.any (fun t => match t with | .nan _ => true | _ => false)
  let pos := l.any (fun t => match t with | .inf false => true | _ => false)
  let neg := l.any (fun t => match t with | .inf true => true | _ => false)
  let nv := (pos && neg) || l.any (fun t => match t with | .nan v => v | _ => false)
  if nan || (pos && neg) then nanOut .f32 nv
  else if pos || neg then (Fmt.f32.sign neg + Fmt.f32.inf, 0)
  else
    let x := l.foldl (fun (y : Ex) t => match t with | .fin _ z => y.add z | _ => y) ⟨0, 0⟩
    rndEx .f32 rne x (l.all (fun t => match t with | .fin n _ => n | _ => false))

/-- One accumulator word after its products (R118): `l` holds the raw values of A and B. -/
def macWord (f : BitVec 4) (c : Nat) (l : List (Nat × Nat)) : Nat × BitVec 5 :=
  if pairInt f then
    (uval 32 (l.foldl (fun (x : Int) p => x + sval 8 p.1 * (if f = 0 then sval 8 p.2 else kq4 p.2)) (c : Int)), 0)
  else
    sumTerms (termOf (Fmt.f32.dec c) :: l.map (fun p => (termOf ((pairFmt f).dec p.1)).mul (termOf ((pairFmt f).dec p.2))))

/-- An entry of the B operand: its position k, the column and slot it is stored at, and its raw value. -/
structure BEnt where
  k : Nat
  n : Nat
  t : Nat
  v : Nat

/-- The dense B operand of column `j` (R218, R220). -/
def denseCol (w : Wave) (b : Nat) (f : BitVec 4) (j : Nat) : List BEnt :=
  (List.range (depthK f)).map (fun k => ⟨k, j, k, packed w b (wB f) (vpOf j) k⟩)

/-! ### Sparse B (R225 to R228) -/

/-- N and M of a pattern (R225). -/
def patN (p : BitVec 3) : Nat := if p = 0 then 2 else if p = 3 then 4 else if p = 1 then 1 else 2
/-- M of a pattern. -/
def patM (p : BitVec 3) : Nat := if p.toNat ≤ 1 then 4 else 8
/-- Index bits of a pattern. -/
def patB (p : BitVec 3) : Nat := if p.toNat ≤ 1 then 2 else 3
/-- B registers of MMAS (R225). -/
def sparseRegs (p : BitVec 3) (f : BitVec 4) : Nat :=
  (if p = 0 ∨ p = 3 then 8 else 4) / (if f = 1 then 2 else 1)

/-- The metadata of a column: 128 bits from four registers (R226). -/
def metaOf (w : Wave) (r n : Nat) : Nat :=
  (List.range 4).foldr (fun q x => bits ((w.reg (r + q)).elem (vpOf n)).toNat 0 32 + 2 ^ 32 * x) 0

/-- The stored entries of a column (R226). -/
def storedCol (w : Wave) (b : Nat) (p : BitVec 3) (f : BitVec 4) (n : Nat) : List BEnt :=
  let md := metaOf w (b + sparseRegs p f) n
  (List.range (2 * depthK f * patN p / patM p)).map (fun t =>
    ⟨patM p * (t / patN p) + bits md (patB p * t) (patB p), n, t, packed w b (wB f) (vpOf n) t⟩)

/-- The order in which entries of a group are kept: lowest k, then lower column, then lower slot (R227). -/
def entLe (a b : BEnt) : Bool :=
  decide (a.k < b.k) || (decide (a.k = b.k) && (decide (a.n < b.n) || (decide (a.n = b.n) && decide (a.t ≤ b.t))))

/-- An entry put in its place. -/
def entInsert (e : BEnt) : List BEnt → List BEnt
  | [] => [e]
  | x :: l => if entLe e x then e :: x :: l else x :: entInsert e l

/-- The entries of a column of the transposed operand, before groups are cut (R227). -/
def transCol (w : Wave) (b : Nat) (p : BitVec 3) (f : BitVec 4) (j : Nat) : List BEnt :=
  let kk := 2 * depthK f
  ((List.range 64).flatMap (fun n => (storedCol w b p f n).filterMap (fun e =>
    if kk * (n / kk) + e.k = j then some { e with k := n % kk } else none))).foldl (fun l e => entInsert e l) []

/-- The groups of a column of the transposed operand. -/
def transGroups (w : Wave) (b : Nat) (p : BitVec 3) (f : BitVec 4) (j : Nat) : List (List BEnt) :=
  let c := transCol w b p f j
  (List.range (2 * depthK f / patM p)).map (fun g => c.filter (fun e => decide (e.k / patM p = g)))

/-- The used entries of a column of MMAS. -/
def sparseCol (w : Wave) (b : Nat) (p : BitVec 3) (f : BitVec 4) (x : BitVec 1) (j : Nat) : List BEnt :=
  if x = 0 then storedCol w b p f j else (transGroups w b p f j).flatMap (fun g => g.take (patN p))

/-- Whether a transposed block has a group whose count is not N (R227). -/
def nonTrans (w : Wave) (b : Nat) (p : BitVec 3) (f : BitVec 4) : Bool :=
  (List.range 64).any (fun j => (transGroups w b p f j).any (fun g => g.length != patN p))

/-! ### The epilogue (R229 to R232) -/

/-- Fields of a captured word. -/
def epiVd (x : BitVec 32) : Nat := bits x.toNat 17 6

/-- The source specifiers that a captured word uses. -/
def epiSrcs (x : BitVec 32) : List Nat :=
  bits x.toNat 8 8 :: (if opOf x = 0x77 ∨ opOf x = 0x7B ∨ opOf x = 0x7C then [] else [bits x.toNat 0 8])

/-- Whether a source specifier is not allowed in an epilogue program (R230). -/
def epiSrcBad (comp : Bool) (x : Nat) : Bool :=
  let n := bits x 0 6
  bits x 7 1 == 1 ||
    (if bits x 6 1 = 0 then decide (17 < n) || (n == 17 && !comp) else !(n == 5 || decide (8 ≤ n ∧ n ≤ 39)))

/-- Whether a captured word raises FRAME (R229). -/
def epiWordBad (comp : Bool) (x : BitVec 32) : Bool :=
  let op := opOf x
  let d := epiVd x
  !(decide (0x71 ≤ op ∧ op ≤ 0x79) || decide (0x7B ≤ op ∧ op ≤ 0x7D)) || bits x.toNat 23 1 == 1 || bits x.toNat 16 1 == 1 ||
    (epiSrcs x).any (epiSrcBad comp) ||
    (if op = 0x7D then !(d == 0 || d == 2 || d == 4 || d == 6 || (d == 16 && comp))
     else !(decide (d < 8) || d == 16 || (d == 17 && comp) || d == 18))

/-- The values of one element of the epilogue: t0 to t7, se, sl and out by their codes. -/
abbrev EpiState := List (Nat × Nat)

/-- A source of the epilogue for column `j` (R230). -/
def epiRead (w : Wave) (par : Nat) (scal : List (BitVec 32)) (ae j : Nat) (st : EpiState) (x : Nat) : Nat :=
  let n := bits x 0 6
  if bits x 6 1 = 1 then (if n = 5 then ae else (scal.getD (n - 8) 0).toNat)
  else if 8 ≤ n ∧ n < 16 then bits ((w.reg (par + (n - 8))).elem (vpOf j)).toNat 0 32
  else spGet 0 st n

/-- One captured word executed: the element's values and its flags. -/
def epiStep (rd : EpiState → Nat → Nat) (st : EpiState) (x : BitVec 32) : EpiState × BitVec 5 :=
  let a := rd st (bits x.toNat 8 8)
  let b := rd st (bits x.toNat 0 8)
  let d := epiVd x
  let put (r : Nat × BitVec 5) : EpiState × BitVec 5 := (spSet 0 st d r.1, r.2)
  match opOf x with
  | 0x71 => put (fadd .f32 rne a b)
  | 0x72 => put (fsub .f32 rne a b)
  | 0x73 => put (fmul .f32 rne a b)
  | 0x74 => put (ffma .f32 rne a b (spGet 0 st d))
  | 0x75 => put (ffma .f32 rne (fneg .f32 a) b (spGet 0 st d))
  | 0x76 => put (fdiv .f32 rne a b)
  | 0x77 => put (fsqrt .f32 rne a)
  | 0x78 => put (fminmax .f32 false a b)
  | 0x79 => put (fminmax .f32 true a b)
  | 0x7B => put (fexp2 a)
  | 0x7C => put (frcp a)
  | _ =>
    let r := faddc a b
    (spSet 0 (spSet 0 st d r.1) (d + 1) r.2.1, r.2.2)

/-- The program run on one element. -/
def epiRun (rd : EpiState → Nat → Nat) : List (BitVec 32) → EpiState → BitVec 5 → EpiState × BitVec 5
  | [], st, fl => (st, fl)
  | x :: t, st, fl =>
    let r := epiStep rd st x
    epiRun rd t r.1 (fl ||| r.2)

/-- ST, LT, O, P and the flags of a MEPI word (R229). -/
def Mepi.st (m : Mepi) : Nat := bits m.word.toNat 22 2
/-- LT. -/
def Mepi.lt (m : Mepi) : Nat := bits m.word.toNat 2 2
/-- O. -/
def Mepi.out (m : Mepi) : Nat := bits m.word.toNat 16 6
/-- P. -/
def Mepi.par (m : Mepi) : Nat := bits m.word.toNat 10 6
/-- COMP. -/
def Mepi.comp (m : Mepi) : Bool := bits m.word.toNat 4 1 == 1
/-- RST. -/
def Mepi.rst (m : Mepi) : Bool := bits m.word.toNat 5 1 == 1
/-- OUT. -/
def Mepi.wout (m : Mepi) : Bool := bits m.word.toNat 1 1 == 1

/-- The parameter registers that the program names. -/
def Mepi.params (m : Mepi) : List Nat :=
  ((m.words.flatMap epiSrcs).filter (fun x => bits x 6 1 == 0 && decide (8 ≤ bits x 0 6 ∧ bits x 0 6 < 16))).map (fun x => m.par + (bits x 0 6 - 8))

/-- The output group's size (R231). -/
def outRegs (f : BitVec 4) : Nat := 64 * wA f / 32

/-- Whether the epilogue of a tile's MMA raises ILLOP (R232). -/
def epiIllop (w : Wave) (t : Nat) (f : BitVec 4) : Bool :=
  match w.mepi with
  | none => true
  | some m =>
    t == m.st || (m.comp && t == m.lt) || (m.wout && decide (w.cfg.nreg ≤ m.out + outRegs f - 1)) ||
      (!m.params.isEmpty && decide (w.cfg.nreg ≤ m.par + 7))

/-- The epilogue of one element (R231): the wave, the output value and the flags. -/
def epiElem (m : Mepi) (f : BitVec 4) (t i j : Nat) (word : Nat) (w : Wave) : Wave × Nat × BitVec 5 :=
  let ae := if pairInt f then rndEx .f32 rne ⟨sval 32 word, 0⟩ false else (word, 0)
  let clr := m.rst && (w.mask 1).getLsbD i
  let se := if clr then 0 else w.tile m.st i j
  let sl := if clr ∨ !m.comp then 0 else w.tile m.lt i j
  let usesAe := m.words.any (fun x => (epiSrcs x).any (fun y => bits y 0 7 == 0x45))
  let r := epiRun (epiRead w m.par m.scal ae.1 j) m.words (spSet 0 (spSet 0 [] 16 se) 17 sl) (if usesAe then ae.2 else 0)
  let w1 := w.setTile m.st i j (spGet 0 r.1 16)
  let w2 := if m.comp then w1.setTile m.lt i j (spGet 0 r.1 17) else w1
  (w2.setTile t i j 0, spGet 0 r.1 18, r.2)

/-- An output value in A's format (R231). -/
def epiOut (f : BitVec 4) (v : Nat) : Nat × BitVec 5 :=
  convert 32 rne (if pairInt f then .int 8 true else .flt (pairFmt f)) (.flt .f32) v

/-- The epilogue of a row: the wave, the converted outputs by column, and the flags. -/
def epiRow (m : Mepi) (f : BitVec 4) (t i : Nat) (words : List Nat) (w : Wave) : Wave × List Nat × BitVec 5 :=
  (words.zip (List.range 64)).foldl (fun acc e =>
    let r := epiElem m f t i e.2 e.1 acc.1
    let o := if m.wout then epiOut f r.2.1 else (0, 0)
    (r.1, acc.2.1 ++ [o.1], acc.2.2 ||| r.2.2 ||| o.2)) (w, [], 0)

/-! ### MMA and MMAS (R220, R225) -/

/-- One row's new accumulator words and flags. -/
def mmaRow (w : Wave) (t a : Nat) (f : BitVec 4) (cols : List (List BEnt)) (i : Nat) : List (Nat × BitVec 5) :=
  (cols.zip (List.range 64)).map (fun c => macWord f (w.tile t i c.2) (c.1.map (fun e => (packed w a (wA f) i e.k, e.v))))

/-- The rows of an MMA committed one after another (R220, R231): the wave, and for each row its converted outputs. -/
def mmaRows (w0 : Wave) (t a : Nat) (f : BitVec 4) (ep : Option Mepi) (cols : List (List BEnt)) :
    List Nat → Wave → Wave × List (Nat × List Nat)
  | [], w => (w, [])
  | i :: l, w =>
    let r := mmaRow w0 t a f cols i
    let fl := r.foldl (fun x e => x ||| e.2) (0 : BitVec 5)
    let w1 := w.setRow t i 0 (r.map Prod.fst)
    let res := match ep with
      | none => (w1, ([] : List Nat), (0 : BitVec 5))
      | some m => epiRow m f t i (r.map Prod.fst) w1
    let w2 : Wave := { res.1 with cfg := { res.1.cfg with fflags := res.1.cfg.fflags ||| fl ||| res.2.2 } }
    let rest := mmaRows w0 t a f ep cols l w2
    (rest.1, (i, res.2.1) :: rest.2)

/-- Word `q` of the output group for a row's values. -/
def outWord (n : Nat) (vals : List Nat) (q : Nat) : Nat :=
  (List.range (32 / n)).foldr (fun k x => vals.getD (q * (32 / n) + k) 0 % 2 ^ n + 2 ^ n * x) 0

/-- The output group written (R231): a masked write at the current VL whose active elements are the active rows. -/
def writeOut (age o n : Nat) (rows : List (Nat × List Nat)) (w : Wave) : Wave :=
  (List.range (64 * n / 32)).foldl (fun y q =>
    y.writeReg age (o + q) (rows.map (fun r => (r.1, BitVec.ofNat 64 (outWord n r.2 q))))) w

/-- What an MMA, MMAS or MSCACC asks when it takes effect, after its own checks (R221): of the registers that it does not read by row it
reads elements 0 to 63. -/
def mmaGate (s : State) (e : QEntry) (t : Nat) (f : BitVec 4) (ep : Bool) (regs byRow : List Nat) : QGate :=
  let illop := regs.any (fun r => decide (s.w.cfg.nreg ≤ r)) || (ep && epiIllop s.w t f)
  let prog := if ep then s.w.mepi else none
  { cause := if illop then some (0x01, 0, e.pc) else if s.w.ew != 32 then some (0x02, 0, e.pc) else none
    reads := regs ++ (match prog with | some m => m.params | none => [])
    byRow := byRow
    elems := some (List.range 64)
    delayed := matrixDelayed s e.word
    writes := match prog with
      | some m => if m.wout then (List.range (outRegs f)).map (fun q => m.out + q) else []
      | none => [] }

/-- An in-flight matrix instruction: its entry has left the queue and completes later (R222); with E = 1 it keeps the word of the epilogue
program that it has started with. -/
def startMatrix (t m : Nat) (s : State) : State :=
  match s.w.vqNow with
  | [] => s
  | e :: _ =>
    let cap := match s.w.mepi with | some p => if isMac e.word && opOf e.word != 0xB4 && bits e.word.toNat 4 1 == 1 then [p.word] else [] | none => []
    (popEntry (noteMatrix s e.word) t m).mapW (fun w => { w with mat := w.mat ++ [{ e with cap := cap }] })

/-- VSTART set. -/
def Wave.setVstart (w : Wave) (v : Nat) : Wave := { w with cfg := { w.cfg with vstart := BitVec.ofNat 6 v } }

/-- The first row of a list with an uncorrectable error in the registers read by row or in a tile, with the EVAL of its trap: the
register and element, or for a tile a value that the spec does not give (R223, R253; log entry 34). -/
def badRow (s : State) (regs tiles rows : List Nat) : Option (Nat × U64) :=
  rows.findSome? (fun i =>
    match s.w.badElem regs [i] with
    | some (_, x) => some (i, x)
    | none => if tiles.any (fun t => s.w.badRows.contains (t, i)) then some (i, Config.rowError s.free) else none)

/-- The oldest entry charged in full, its bound given back: it stays and is charged again when it is executed again (R223, R366). -/
def chargeHead (ticks : Nat) (w : Wave) : Wave :=
  match w.vqNow with
  | [] => w
  | e :: _ =>
    ((w.refund e.rsvT e.rsvS).deduct ticks 0).setHead { e with rsvT := 0, rsvS := 0 }

/-- A matrix instruction that meets an error in a row (R223): charged in full, its lower rows committed, VSTART at the row. -/
def stopAtRow (s : State) (ticks : Nat) (act : Wave → Wave) (r : Nat × U64) : State :=
  raise (s.mapW (fun w => (act (chargeHead ticks w)).setVstart r.1)) { src := 2, cause := 0x0F, val := r.2 }

/-- The rows of a list below the row of an error. -/
def rowsBelow (rows : List Nat) (r : Option (Nat × U64)) : List Nat :=
  match r with
  | none => rows
  | some (k, _) => rows.filter (fun i => decide (i < k))

/-- MMA or MMAS takes effect (R220, R231). DESIGN CHOICE (log entry 64): where an error in a row stops it, the output group's values of the
rows below are written at the trap; R231 writes the group at completion, and R223 has those rows commit with their epilogue work. -/
def effMac (e : QEntry) (t a : Nat) (f : BitVec 4) (rm ep : BitVec 1) (byRow regs : List Nat) (cols : Wave → List (List BEnt))
    (ntrans : Wave → Bool) (s : State) : State :=
  let rows := s.w.rows s.w.cfg.vstart.toNat rm
  runEntry (mmaGate s e t f (ep == 1) (byRow ++ regs) byRow) (fun s0 =>
    let prog := if ep = 1 then s0.w.mepi else none
    let ticks := 8 + (match prog with | some m => m.words.length | none => 0)
    let bad := badRow s0 byRow (t :: (match prog with | some m => m.st :: (if m.comp then [m.lt] else []) | none => [])) rows
    let act (w : Wave) : Wave :=
      let r := mmaRows s0.w t a f prog (cols s0.w) (rowsBelow rows bad) w
      let w1 := match prog with
        | some m => if m.wout then writeOut s0.free m.out (wA f) r.2 r.1 else r.1
        | none => r.1
      { w1.setVstart 0 with ctl := { w1.ctl with ntrans := w1.ctl.ntrans || ntrans s0.w } }
    match bad with
    | some r => stopAtRow s0 ticks act r
    | none => (startMatrix ticks 0 s0).mapW act) s

/-- MMA takes effect. -/
def effMma (t : BitVec 2) (a b : BitVec 6) (f : BitVec 4) (r e : BitVec 1) (q : QEntry) (s : State) : State :=
  effMac q t.toNat a.toNat f r e
    ((List.range 8).map (a.toNat + ·)) ((List.range (if f = 1 then 4 else 8)).map (b.toNat + ·))
    (fun w => (List.range 64).map (denseCol w b.toNat f)) (fun _ => false) s

/-- MMAS takes effect. -/
def effMmas (t : BitVec 2) (a b : BitVec 6) (f : BitVec 4) (r e : BitVec 1) (p : BitVec 3) (x : BitVec 1) (q : QEntry) (s : State) : State :=
  effMac q t.toNat a.toNat f r e
    ((List.range 16).map (a.toNat + ·)) ((List.range (sparseRegs p f + 4)).map (b.toNat + ·))
    (fun w => (List.range 64).map (sparseCol w b.toNat p f x)) (fun w => x == 1 && nonTrans w b.toNat p f) s

/-- What a matrix instruction asks at issue (R210, R211, R221). -/
def matGate (ticks : Nat) : Gate := { roles := [0, 2], own := true, queue := true, ticks := ticks }

/-- The length of the epilogue program that an MMA issued now will use (R127). -/
def epiLength (w : Wave) : Nat :=
  match (w.vqNow.filter (fun e => opOf e.word == 0xB9)).getLast? with
  | some e => e.cap.length
  | none => (match w.mepi with | some m => m.words.length | none => 0)

/-- The ticks of an MMA or MMAS at issue. -/
def mmaTicks (w : Wave) (e : BitVec 1) : Nat := 8 + (if e = 1 then epiLength w else 0)

/-- MMA (R220). -/
def execMma (t : BitVec 2) (a b : BitVec 6) (f : BitVec 4) (r e : BitVec 1) (s : State) : Out :=
  issueControl (.mma t a b f r e) (matGate (mmaTicks s.w e)) s (enqueueNext (.mma t a b f r e) (matGate (mmaTicks s.w e)) 0 0 0)

/-- MMAS (R225). -/
def execMmas (t : BitVec 2) (a b : BitVec 6) (f : BitVec 4) (r e : BitVec 1) (p : BitVec 3) (x : BitVec 1) (s : State) : Out :=
  issueControl (.mmas t a b f r e p x) (matGate (mmaTicks s.w e)) s
    (enqueueNext (.mmas t a b f r e p x) (matGate (mmaTicks s.w e)) 0 0 0)

/-! ### MSCACC (R119, R224) -/

/-- MSCACC (R224). -/
def execMscacc (d : BitVec 2) (sr g : BitVec 6) (f : BitVec 4) (r : BitVec 1) (p : BitVec 2) (z : BitVec 1) (s : State) : Out :=
  issueControl (.mscacc d sr g f r p z) (matGate 2) s (enqueueNext (.mscacc d sr g f r p z) (matGate 2) 0 0 0)

/-- One element of MSCACC (R119). -/
def scaleWord (f : BitVec 4) (d p s8 g : Nat) : Nat × BitVec 5 :=
  let pt : Term := if pairInt f then .fin (decide (sval 32 p < 0)) ⟨sval 32 p, 0⟩ else termOf (Fmt.f32.dec p)
  let sc : Term := .fin false ⟨s8, if f = 1 then -16 else -8⟩
  sumTerms [termOf (Fmt.f32.dec d), (pt.mul sc).mul (termOf (Fmt.f32.dec g))]

/-- One row of MSCACC. -/
def scaleRow (w0 : Wave) (d sr g : Nat) (f : BitVec 4) (p : Nat) (z : BitVec 1) (w : Wave) (i : Nat) : Wave :=
  let r := (List.range 64).map (fun j =>
    scaleWord f (w0.tile d i j) (w0.tile p i j) (bits ((w0.reg sr).elem (vpOf j)).toNat 0 8) (bits ((w0.reg g).elem (vpOf j)).toNat 0 32))
  let w1 := w.setRow d i 0 (r.map Prod.fst)
  let w2 := if z = 1 then w1.setRow p i 0 (List.replicate 64 0) else w1
  { w2 with cfg := { w2.cfg with fflags := w2.cfg.fflags ||| r.foldl (fun x e => x ||| e.2) 0 } }

/-- MSCACC takes effect. -/
def effMscacc (d : BitVec 2) (sr g : BitVec 6) (f : BitVec 4) (r : BitVec 1) (p : BitVec 2) (z : BitVec 1) (e : QEntry) (s : State) : State :=
  let rows := s.w.rows s.w.cfg.vstart.toNat r
  let regs := [sr.toNat, g.toNat]
  runEntry (mmaGate s e 0 f false regs []) (fun s0 =>
    let bad := badRow s0 [] [d.toNat, p.toNat] rows
    let act (w : Wave) : Wave := ((rowsBelow rows bad).foldl (scaleRow s0.w d.toNat sr.toNat g.toNat f p.toNat z) w).setVstart 0
    match bad with
    | some r => stopAtRow s0 2 act r
    | none => (startMatrix 2 0 s0).mapW act) s

/-! ### MMOV (R365, R366) -/

/-- MMOV from a tile. -/
def execMmovTileToReg (t : BitVec 2) (v : BitVec 6) (r : BitVec 1) (c : BitVec 2) (s : State) : Out :=
  issueControl (.mmovTileToReg t v r c) (matGate 8) s (enqueueNext (.mmovTileToReg t v r c) (matGate 8) 0 0 0)

/-- MMOV to a tile. -/
def execMmovRegToTile (t : BitVec 2) (v : BitVec 6) (r : BitVec 1) (c : BitVec 2) (s : State) : Out :=
  issueControl (.mmovRegToTile t v r c) (matGate 8) s (enqueueNext (.mmovRegToTile t v r c) (matGate 8) 0 0 0)

/-- The trap of MSAVE's read of a tile that holds an uncorrectable error (R369). -/
def tileError (s : State) (t : Nat) (rows : List Nat) : Option (BitVec 8 × Nat × U64) :=
  (badRow s [] [t] rows).map (fun r => ((0x0F : BitVec 8), 0, r.2))

/-- The sixteen registers of MMOV. -/
def movRegs (v : BitVec 6) : List Nat := (List.range 16).map (v.toNat + ·)

/-- The checks of MMOV (R218, R365). -/
def movCause (s : State) (e : QEntry) (v : BitVec 6) : Option (BitVec 8 × Nat × U64) :=
  match nregCheck s e (movRegs v) with
  | some x => some x
  | none => if s.w.ew != 32 then some (0x02, 0, e.pc) else none

/-- MMOV from a tile takes effect; an error in a row that it reads traps with that row as VP (R366). -/
def effMmovTileToReg (t : BitVec 2) (v : BitVec 6) (r : BitVec 1) (c : BitVec 2) (e : QEntry) (s : State) : State :=
  let rows := s.w.rows 0 r
  runEntry { cause := movCause s e v, writes := movRegs v } (fun s0 =>
    match badRow s0 [] [t.toNat] rows with
    | some (i, x) => raise (s0.mapW (chargeHead 8)) { src := 2, cause := 0x0F, vp := i, val := x }
    | none =>
      (startMatrix 8 0 s0).mapW (fun w =>
        (List.range 16).foldl (fun y k => y.writeReg s0.free (v.toNat + k)
          (rows.map (fun i => (i, BitVec.ofNat 64 (s0.w.tile t.toNat i (16 * c.toNat + k)))))) w)) s

/-- MMOV to a tile takes effect. -/
def effMmovRegToTile (t : BitVec 2) (v : BitVec 6) (r : BitVec 1) (c : BitVec 2) (e : QEntry) (s : State) : State :=
  let rows := s.w.rows 0 r
  runEntry { cause := movCause s e v, reads := movRegs v, elems := some rows } (fun s0 =>
    (startMatrix 8 0 s0).mapW (fun w =>
      rows.foldl (fun y i => y.setRow t.toNat i (16 * c.toNat)
        ((List.range 16).map (fun k => ((s0.w.reg (v.toNat + k)).elem i).toNat))) w)) s

/-! ### MZERO (R371) -/

/-- MZERO of one tile. -/
def execMzero (t : BitVec 2) (r : BitVec 1) (s : State) : Out :=
  issueControl (.mzero t r) (matGate 2) s (enqueueNext (.mzero t r) (matGate 2) 0 0 0)

/-- MZERO of every tile. -/
def execMzeroAll (r : BitVec 1) (s : State) : Out :=
  issueControl (.mzeroAll r) (matGate 2) s (enqueueNext (.mzeroAll r) (matGate 2) 0 0 0)

/-- MZERO takes effect. -/
def effMzero (ts : List Nat) (r : BitVec 1) (s : State) : State :=
  runEntry {} (fun s0 => (startMatrix 2 0 s0).mapW (fun w =>
    let rows := if r = 0 then List.range 64 else w.rows 0 1
    { w with tiles := w.tiles.filter (fun e => !(ts.contains (e.1 / 4096) && rows.contains (e.1 % 4096 / 64)))
             badRows := w.badRows.filter (fun e => !(ts.contains e.1 && rows.contains e.2)) })) s

/-! ### MSAVE and MREST (R368, R369) -/

/-- What MSAVE and MREST ask at issue. -/
def tileGate (s : State) (a : BitVec 5) (p : BitVec 2) : Gate :=
  { matGate 8 with deps := [a], sectors := if p = 3 ∨ inAperture (s.w.gs a).toNat then 0 else 512, cls := some 1 }

/-- MSAVE. -/
def execMsave (t : BitVec 2) (a : BitVec 5) (p : BitVec 2) (s : State) : Out :=
  issueControl (.msave t a p) (tileGate s a p) s (enqueueNext (.msave t a p) (tileGate s a p) 0 0 0)

/-- MREST. -/
def execMrest (t : BitVec 2) (a : BitVec 5) (p : BitVec 2) (s : State) : Out :=
  issueControl (.mrest t a p) (tileGate s a p) s (enqueueNext (.mrest t a p) (tileGate s a p) 0 0 0)

/-- Eight words of a tile as a 32-byte value. -/
def tileSector (w : Wave) (t k : Nat) : Nat :=
  (List.range 8).foldr (fun q x => (spGet (0 : BitVec 32) w.tiles (t * 4096 + 8 * k + q)).toNat + 2 ^ 32 * x) 0

/-- A tile written to a target, sector by sector. -/
def writeTile (s : State) (t : Nat) (g : Target) : State :=
  let z := (List.range 512).foldl (fun y k => targetWrite y y.w.team (g.shift (32 * k)) 32 (tileSector s.w t k)) s
  match g with
  | .pkg pa => l1Update z s.w.die s.w.cl pa 16384
  | _ => z

/-- A tile read from a target. -/
def readTile (s : State) (t : Nat) (g : Target) : Wave :=
  let old := s.w.tiles.filter (fun e => e.1 / 4096 != t)
  { s.w with badRows := s.w.badRows.filter (fun e => e.1 != t), tiles := (List.range 4096).foldl (fun l k =>
      spSet (0 : BitVec 32) l (t * 4096 + k) (BitVec.ofNat 32 (targetRead s s.w.team (g.shift (4 * k)) 4))) old }

/-- The check of MSAVE and MREST (R368): the cause of the fault at their address, or ECC of a sector that is read. -/
def tileTrap (s : State) (acc : Acc) (p : BitVec 2) (va : U64) : Option (BitVec 8 × Nat × U64) :=
  match resolve s acc (p == 3) va 16384 with
  | .error c => some (c, 0, va)
  | .ok g => if acc.r && (List.range 512).any (fun k => s.poisonedAt (g.shift (32 * k))) then some (0x0F, 0, eccAddr (p == 3) va) else none

/-- Whether a failed link holds the accesses to a tile's image (R262). -/
def tileHeld (s : State) (acc : Acc) (p : BitVec 2) (va : U64) : Bool :=
  !s.pkg.failedLinks.isEmpty &&
    (match resolve s acc (p == 3) va 16384 with
     | .ok g => (List.range 512).any (fun k => tripHeld s s.w.die (g.shift (32 * k)))
     | .error _ => false)

/-- MSAVE or MREST takes effect: the address is read now, and waits for an outstanding result. -/
def effTileMem (acc : Acc) (err : State → Option (BitVec 8 × Nat × U64)) (act : Target → State → State) (a : BitVec 5) (p : BitVec 2)
    (e : QEntry) (s : State) : State :=
  let va := s.w.gs a
  if s.w.outstanding a || tileHeld s acc p va then s
  else
    runEntry { cause := if s.w.ew != 32 then some (0x02, 0, e.pc) else none, vas := walked (p == 3) 16384 va
               late := fun s1 => (match tileTrap s1 acc p va with | some x => some x | none => err s1) } (fun s0 =>
      match resolve s0 acc (p == 3) va 16384 with
      | .error _ => s0
      | .ok g =>
        let n := if g.isSector then 512 else 0
        act g (settleTokens e 1 n (startMatrix 8 n s0))) s

/-- MSAVE takes effect. -/
def effMsave (t : BitVec 2) (a : BitVec 5) (p : BitVec 2) (e : QEntry) (s : State) : State :=
  effTileMem Acc.store (fun s0 => tileError s0 t.toNat (List.range 64)) (fun g s0 => writeTile s0 t.toNat g) a p e s

/-- MREST takes effect. -/
def effMrest (t : BitVec 2) (a : BitVec 5) (p : BitVec 2) (e : QEntry) (s : State) : State :=
  effTileMem Acc.load (fun _ => none) (fun g s0 => s0.setW (readTile s0 t.toNat g)) a p e s

/-! ### MEPI (R229, R364) -/

/-- The scalar registers that captured words name. -/
def epiScalars (ws : List (BitVec 32)) : List (BitVec 5) :=
  (ws.flatMap epiSrcs).filterMap (fun x => if bits x 6 1 = 1 ∧ 8 ≤ bits x 0 6 ∧ bits x 0 6 ≤ 39 then some (BitVec.ofNat 5 (bits x 0 6 - 8)) else none)

/-- MEPI (R364): it captures the words that follow it, and the control thread goes on after them. -/
def execMepi (st : BitVec 2) (o p : BitVec 6) (l : BitVec 4) (r c : BitVec 1) (t : BitVec 2) (u : BitVec 1) (s : State) : Out :=
  let ws := fetchWords s (s.w.pc + 4) (l.toNat + 1)
  let g : Gate := { matGate 2 with
    deps := match ws with | .ok x => epiScalars x | .error _ => []
    await := awaitFetch 0 none ((List.range (l.toNat + 1)).map (fun k => s.w.pc + 4 + BitVec.ofNat 64 (4 * k))) }
  issueControl (.mepi st o p l r c t u) g s (fun s1 =>
    match ws with
    | .error (e, va) => .next (trapAt s1 e va)
    | .ok x =>
      let q : QEntry := { word := wordOf (.mepi st o p l r c t u), pc := s1.w.pc, rsvT := if s1.w.trp.inh then 0 else 2
                          cap := x, capS := (List.range 32).map (fun k => BitVec.ofNat 32 (s1.w.gs (BitVec.ofNat 5 k)).toNat) }
      .next (jumpTo (enqueue s1 q) (s1.w.pc + 4 + BitVec.ofNat 64 (4 * x.length))))

/-- MEPI takes effect (R229): FRAME keeps the previous program. -/
def effMepi (st : BitVec 2) (c : BitVec 1) (t : BitVec 2) (e : QEntry) (s : State) : State :=
  let bad := (c == 1 && t == st) || e.cap.any (epiWordBad (c == 1))
  runEntry { cause := if bad then some (0x12, 0, e.pc) else if s.w.ew != 32 then some (0x02, 0, e.pc) else none } (fun s0 =>
    (popEntry s0 2 0).mapW (fun w => { w with mepi := some ⟨e.word, e.cap, e.capS⟩ })) s

/-! ### Ownership (R211, R212, R362) -/

/-- The request of the ownership queue that is next: highest class, then lowest stamp. -/
def macqNext (s : State) (die cl : Nat) : Option Wave :=
  (s.waves.filter (fun w => (s.cluster die cl).macq.contains w.id)).foldl (fun (b : Option Wave) w =>
    match b with
    | none => some w
    | some m => if m.hdr.cls < w.hdr.cls ∨ (m.hdr.cls = w.hdr.cls ∧ w.stamp < m.stamp) then some w else some m) none

/-- The tiles that the unit of the focused wave's cluster holds for another wave, resident on it or away from it, written to that wave's tile
area (R212). -/
def swapOut (s : State) : Except (BitVec 8 × U64) State :=
  match s.myCluster.tileOf with
  | none => .ok s
  | some h =>
    if h = s.w.id then .ok s
    else
      let x := s.focus h
      if x.w.place = s.w.place then
        (match saveTiles x with
         | .error e => .error e
         | .ok s1 => .ok ((s1.mapW (fun w => { w with tiles := [], badRows := [] })).focus s.w.id))
      else
        (match saveTileWords x s.myCluster.kept with
         | .error e => .error e
         | .ok s1 => .ok (s1.focus s.w.id))

/-- The tiles of the focused wave brought into the unit. -/
def swapIn (s : State) : Except (BitVec 8 × U64) State :=
  if s.myCluster.tileOf = some s.w.id then .ok s
  else if s.w.everOwned then loadTiles s
  else .ok (s.mapW (fun w => { w with tiles := [] }))

/-- Whether a failed link holds the swap (R262). -/
def swapHeld (s : State) : Bool :=
  !s.pkg.failedLinks.isEmpty &&
    (match s.myCluster.tileOf with
     | none => false
     | some h => h != s.w.id && spanHeld (s.focus h) ((s.focus h).tileArea, 0x10000)) ||
    (!s.pkg.failedLinks.isEmpty && s.myCluster.tileOf != some s.w.id && s.w.everOwned && spanHeld s (s.tileArea, 0x10000))

/-- The matrix unit of its cluster granted to the focused wave (R212), or nothing while the swap faults or is held. -/
def grantMatrix (s : State) : Option State :=
  if swapHeld s then none
  else
  match swapOut s with
  | .error _ => none
  | .ok s1 =>
    match swapIn s1 with
    | .error _ => none
    | .ok s2 =>
      let c := s2.myCluster
      some ((s2.setMyCluster { c with owner := some s2.w.id, tileOf := some s2.w.id, kept := [], keptBad := [], macq := c.macq.filter (· != s2.w.id) }).mapW
        (fun w => { w with everOwned := true, wantsMat := false }))

/-- Whether the focused wave is the one that is granted next. -/
def macqTurn (s : State) : Bool :=
  s.myCluster.owner.isNone && (match macqNext s s.w.die s.w.cl with | some w => w.id == s.w.id | none => false)

/-- The focused wave in the ownership queue. -/
def joinMacq (s : State) : State :=
  if s.myCluster.macq.contains s.w.id then s else s.setMyCluster { s.myCluster with macq := s.myCluster.macq ++ [s.w.id] }

/-- MACQ once its request stands in the queue: granted, or waiting. -/
def macqTry (s : State) : State :=
  if macqTurn s then (match grantMatrix s with | some s1 => advance s1 | none => waiting .macq 0 s) else waiting .macq 0 s

/-- MACQ (R211, R362). -/
def execMacq (s : State) : Out :=
  issueControl .macq { roles := [0, 2], noHandler := true, ticks := 2 } s (fun s1 =>
    if s1.myCluster.owner = some s1.w.id then .next (advance s1) else .next (macqTry (joinMacq s1)))

/-- Whether every earlier matrix instruction of the wave has completed (R362). -/
def matrixIdle (w : Wave) : Bool := w.mat.isEmpty && w.vqNow.all (fun e => !decide (0xB2 ≤ opOf e.word ∧ opOf e.word ≤ 0xB9))

/-- MREL (R211, R362). -/
def execMrel (s : State) : Out :=
  issueControl .mrel { roles := [0, 2], noHandler := true, own := true, ticks := 2 } s (fun s1 =>
    if matrixIdle s1.w then .next (advance (s1.setMyCluster { s1.myCluster with owner := none })) else .next (waiting .mrel 0 s1))

/-- The oldest in-flight matrix instruction completes (R222). -/
def completeMatrix (s : State) : State := s.mapW (fun w => { w with mat := w.mat.drop 1 })

end Sys2Proof.Machine
end

