-- ==== Sys2Proof/Machine/Launch.lean ====
section
/-! DEFINITION. SPAWN and VSPAWN's offers, BTOPUP, YIELD, the dispatcher and placement (R26, R71, R101, R102, R139 to R142, R148,
R149, R177, R194 to R205, R209, R213, R252, R344 to R346, R383, R384, R440, R456, R457). -/

namespace Sys2Proof.Machine

/-! ### Launch headers (R194, R199, R383) -/

/-- A header from its 64 bytes. -/
def hdrOf (n : Nat) : Hdr :=
  let d (k : Nat) : U64 := BitVec.ofNat 64 (n / 2 ^ (64 * k))
  { dw0 := d 0, dw1 := d 1, dw2 := d 2, dw3 := d 3, dw4 := d 4, dw5 := d 5, dw6 := d 6, dw7 := d 7 }

/-- A launch header read as a data load of the focused wave (R199, R383): PAGE, ALIGN for bits [5:0], PERM for the aperture and a
network window, R163, then ECC. -/
def headerAt (s : State) (va : U64) : Except (BitVec 8 × U64) (Target × Hdr) :=
  match packageTarget s Acc.load va 64 with
  | .error c => .error (c, va)
  | .ok (.pkg pa) =>
    if s.poisoned pa then .error (0x0F, va)
    else if s.poisoned (pa + 32) then .error (0x0F, va + 32)
    else .ok (.pkg pa, hdrOf (loadValue s .vec s.sseq (.pkg pa) 64))
  | .ok _ => .error (0x07, va)

/-- What a header's read leaves: its sectors in L1, as a load of policy 0 leaves them (R152, R383), and no older value in the load buffers of
its path (R171). -/
def headerFill (s : State) (g : Target) : State := dropVecEarly (l1Fill (l1Fill s 0 g) 0 (g.shift 32))

/-- Whether a failed link holds the read of a header (R262). -/
def headerHeld (s : State) (va : U64) : Bool :=
  match packageTarget s Acc.load va 64 with
  | .ok g => tripHeld s s.w.die g || tripHeld s s.w.die (g.shift 32)
  | .error _ => false

/-- Whether the header may be read: every VEC access of the wave that has taken effect is performed (R384), so that what it
returns is also what R170 and R175 ask. -/
def headerReady (s : State) : Bool := pathDone s .vec

/-! ### Depth, carves and task queues (R140, R198, R202) -/

/-- The nesting depth and depth limit of the focused wave's children, or none when the spawn fails for depth (R198). -/
def childDepth (w : Wave) (h : Hdr) : Option (Nat × Nat) :=
  if w.sup then some (0, h.depth)
  else if w.limit < w.depth + 1 then none
  else some (w.depth + 1, min w.limit h.depth)

/-- One carve of a budget (R140). -/
def carveOf (q p : U64) : U64 := BitVec.ofNat 64 (min q.toNat ((max p.toInt 0).toNat / 2))

/-- `n` carves of both budgets, one after another (R140): the carves, and the parent's budgets after them. -/
def carveList (q m : U64) : Nat → U64 → U64 → List (U64 × U64) × U64 × U64
  | 0, t, c => ([], t, c)
  | n + 1, t, c =>
    let a := carveOf q t
    let b := carveOf m c
    let r := carveList q m n (t - a) (c - b)
    ((a, b) :: r.1, r.2)

/-- Whether the task queue of a class has a free entry (R202). -/
def queueRoom (s : State) (die cls : Nat) : Bool :=
  decide (((s.die die).tasks.filter (fun l => l.hdr.cls == cls)).length < 4096)

/-- A launch queued on a die. -/
def queueLaunch (s : State) (die : Nat) (l : Launch) : State :=
  s.setDie die { s.die die with tasks := (s.die die).tasks ++ [l] }

/-- The dies on which a launch queues (R55, R199). -/
def launchDies (s : State) (h : Hdr) : List Nat := if h.pkg then List.range s.ndie else [s.w.die]

/-- The waves of one instance of a launch. -/
def Hdr.waves (h : Hdr) : Nat := h.tcount * h.size

/-- The launch that the focused wave queues: the children of a user wave are user waves, those of a supervisor wave supervisors under ASID 0
(R198). -/
def launchOf (s : State) (h : Hdr) (arg : U64) (dl : Nat × Nat) (asid : BitVec 16) (carves : List (U64 × U64)) : Launch :=
  { hdr := h, arg := arg, depth := dl.1, limit := dl.2, asid := asid, sup := s.w.sup && asid == 0, carves := carves, anc := s.w.id :: s.w.anc }

/-- The carves of a launch from the focused wave's budgets, which are left as R140 says. -/
def launchCarves (s : State) (h : Hdr) : List (U64 × U64) × U64 × U64 :=
  if h.inherit then carveList h.ibq h.mbq ((launchDies s h).length * h.waves) s.w.bud.ibgt s.w.bud.mbgt
  else ([], s.w.bud.ibgt, s.w.bud.mbgt)

/-- The launch queued on each of its dies with its share of the carves, in ascending die order. -/
def queueOn (s : State) (h : Hdr) (arg : U64) (dl : Nat × Nat) (asid : BitVec 16) (cs : List (U64 × U64)) : List Nat → State
  | [] => s
  | d :: t => queueOn (queueLaunch s d (launchOf s h arg dl asid (cs.take h.waves))) h arg dl asid (cs.drop h.waves) t

/-- The status of SPAWN with its effect (R199, R201): 3 BADHDR, 2 DEPTH, 4 NOBUDGET, 1 QFULL, 0 OK. -/
def spawnStatus (s : State) (h : Hdr) (arg : U64) (asid : BitVec 16) : Nat × State :=
  if h.invalid false || (h.pkg && !s.w.sup) || (s.w.sup && asid == 0xFFFF) then (3, s)
  else
    match childDepth s.w h with
    | none => (2, s)
    | some dl =>
      let c := launchCarves s h
      if c.1.any (fun x => x.1 == 0) then (4, s)
      else if (launchDies s h).any (fun d => !queueRoom s d h.cls) then (1, s)
      else
        (0, (queueOn s h arg dl asid c.1 (launchDies s h)).mapW (fun w =>
          { w with bud := { w.bud with ibgt := c.2.1, mbgt := c.2.2 } }))

/-- The ASID of SPAWN's children (R198): bits [15:0] of sd for a supervisor wave, otherwise the spawner's. -/
def childAsid (s : State) (d : BitVec 5) : BitVec 16 := if s.w.sup then BitVec.ofNat 16 (s.w.gs d).toNat else s.w.asid

/-- SPAWN with its header read (R199, R383). -/
def spawnDecide (d a b : BitVec 5) (s : State) : State :=
  let va := s.w.gs a
  match headerAt s va with
  | .error (c, v) => trapAt s c v
  | .ok (g, h) =>
    let r := spawnStatus (headerFill s g) h (s.w.gs b) (childAsid s d)
    if r.1 = 2 ∧ d = 0 then trapAt r.2 0x0B va else advance (setS r.2 d (BitVec.ofNat 64 r.1))

/-- A SPAWN that waits for its header: it waits for the translation (R166), for its older accesses, and while a failed link holds the read. -/
def spawnGo (d a b : BitVec 5) (s : State) : State :=
  match awaitWalks 0 (walked false 64 (s.w.gs a)) s with
  | some t => t
  | none => if headerReady s && !headerHeld s (s.w.gs a) then spawnDecide d a b s else s

/-- SPAWN (R199, R383, R384): once issued it waits for its header, and nothing abandons it. -/
def execSpawn (d a b : BitVec 5) (s : State) : Out :=
  issueControl (.spawn d a b) { deps := [d, a, b], ticks := 8, mem := true } s (fun s1 =>
    if s1.w.phase.isNone then .next (waiting (.spawn d a b) 0 s1) else .next (spawnGo d a b s1))

/-! ### VSPAWN's offers (R200, R440) -/

/-- One offer examined and, if it passes, queued and carved: the machine, and whether it was accepted. -/
def takeOffer (s : State) (va arg : U64) : State × Bool :=
  match headerAt s va with
  | .error _ => (s, false)
  | .ok (g, h) =>
    let s0 := headerFill s g
    if h.invalid false || h.pkg then (s0, false)
    else
      let r := spawnStatus s0 h arg s0.w.asid
      (r.2, r.1 == 0)

/-- The offers taken one at a time in ascending element order: the VPs whose launch is queued. -/
def takeOffers : State → List (Nat × U64 × U64) → State × List Nat
  | s, [] => (s, [])
  | s, (v, a, b) :: t =>
    let r := takeOffer s a b
    let q := takeOffers r.1 t
    (q.1, if r.2 then v :: q.2 else q.2)

/-- VSPAWN's offers settled: the mask register is written whole (R200, R440). -/
def settleOffers (s : State) (o : Offers) : State :=
  let r := takeOffers s o.list
  r.1.mapW (fun w => { (w.setMask o.md (BitVec.ofNat 8192 (r.2.foldl (fun x v => x + 2 ^ v) 0))) with offers := none })

/-- Offers that wait for their headers: they are settled once every header is translated and none of the reads is held (R166, R262). -/
def offersGo (s : State) (o : Offers) : State :=
  match awaitWalks (2 + s.w.laneOf (o.vps.headD 0)) (o.list.flatMap (fun x => walked false 64 x.2.1)) s with
  | some t => t
  | none => if o.list.any (fun x => headerHeld s x.2.1) then s else settleOffers s o

/-- Whether the focused wave waits in an instruction. -/
def Wave.waitsIn (w : Wave) (p : Instr → Bool) : Bool :=
  match w.wait with
  | some (.issued i _) => p i
  | _ => false

/-- Whether a wave waits in SPAWN. -/
def inSpawn : Instr → Bool
  | .spawn _ _ _ => true
  | _ => false

/-- LAUNCH_HEADER_READ: the header of SPAWN, or those of VSPAWN's offers, have arrived. -/
def execLaunchHeaderRead (s : State) : Out :=
  event "LAUNCH_HEADER_READ"
    (fun s => s.running s.w.die && s.w.isResident && headerReady s && (s.w.offers.isSome || s.w.waitsIn inSpawn))
    (fun s =>
      match s.w.wait with
      | some (.issued (.spawn d a b) _) => settleWalks 0 (spawnGo d a b s)
      | _ =>
        match s.w.offers with
        | some o => settleWalks (2 + s.w.laneOf (o.vps.headD 0)) (offersGo s o)
        | none => s) s

/-- CMDB_LIST_READ (R351): the descriptor list of a waiting CMDB has been read. -/
def execCmdbListRead (s : State) : Out :=
  event "CMDB_LIST_READ"
    (fun s => s.running s.w.die && s.w.isResident && s.w.phase == some 0 && s.w.waitsIn (fun i => match i with | .cmdb _ _ => true | _ => false))
    (fun s =>
      match s.w.wait with
      | some (.issued (.cmdb a b) _) => settleWalks 0 (cmdbList a b s)
      | _ => s) s

/-! ### BTOPUP (R141, R344 to R346) -/

/-- The waves that a BTOPUP may mean (R345): placed on the die, not exited, with the WID and the ASID, and for a user wave a
descendant. -/
def topupTargets (s : State) (wid : U64) (asid : BitVec 16) : List Wave :=
  s.waves.filter (fun w => decide (w.die = s.w.die) && w.placed && !w.isGone && w.wid == wid && w.asid == asid &&
    (s.w.sup || w.anc.contains s.w.id))

/-- A credit: direct to a resident wave outside a continuation, otherwise pending (R135, R141). -/
def creditWave (t m : U64) (w : Wave) : Wave :=
  if w.isResident && !w.ctl.incont then { w with bud := { w.bud with ibgt := w.bud.ibgt + t, mbgt := w.bud.mbgt + m } }
  else { w with bud := { w.bud with pendT := w.bud.pendT + t, pendS := w.bud.pendS + m } }

/-- A pre-emption request sent to a wave's cluster; a second one has no further effect (R346). -/
def askWave (w : Wave) : Wave :=
  if w.bud.asked then w else { w with bud := { w.bud with asked := true, preemptSent := true } }

/-- The ASID that BTOPUP names (R345). -/
def topupAsid (s : State) (d : BitVec 5) : BitVec 16 := if s.w.sup then BitVec.ofNat 16 (s.w.gs d).toNat else s.w.asid

/-- Whether an amount exceeds the rest of a budget (R345). -/
def exceeds (x b : U64) : Bool := decide (max b.toInt 0 < (x.toNat : Int))

/-- BTOPUP's status and effect (R345). -/
def topupStatus (s : State) (d a : BitVec 5) (amount : Option (U64 × U64)) : Nat × State :=
  match topupTargets s (s.w.gs a) (topupAsid s d) with
  | [] => (1, s)
  | w :: t =>
    if !t.isEmpty then (3, s)
    else
      match amount with
      | some (x, y) =>
        if !s.w.sup && (exceeds x s.w.bud.ibgt || exceeds y s.w.bud.mbgt) then (2, s)
        else
          let s1 := if s.w.sup then s else s.mapW (fun u => { u with bud := { u.bud with ibgt := u.bud.ibgt - x, mbgt := u.bud.mbgt - y } })
          (0, s1.updWave w.id (creditWave x y))
      | none => if !w.isResident then (4, s) else (0, s.updWave w.id askWave)

/-- BTOPUP with its status. -/
def topupDecide (d a : BitVec 5) (amount : Option (BitVec 5 × BitVec 5)) (s : State) : State :=
  let r := topupStatus s d a (amount.map (fun p => (s.w.gs p.1, s.w.gs p.2)))
  advance (setS r.2 d (BitVec.ofNat 64 r.1))

/-- BTOPUP (R141, R344, R345): the control thread waits for the status. -/
def execBtopup (d a b c : BitVec 5) (s : State) : Out :=
  issueControl (.btopup d a b c) { privBad := !s.w.sup && !s.w.hdr.topup, deps := [d, a, b, c], ticks := 4 } s (fun s1 =>
    if s1.w.phase.isNone then .next (waiting (.btopup d a b c) 0 s1) else .next (topupDecide d a (some (b, c)) s1))

/-- BTOPUP.z (R142, R344, R346): for supervisor waves only. -/
def execBtopupZ (d a : BitVec 5) (s : State) : Out :=
  issueControl (.btopupZ d a) { privBad := !s.w.sup, deps := [d, a], ticks := 4 } s (fun s1 =>
    if s1.w.phase.isNone then .next (waiting (.btopupZ d a) 0 s1) else .next (topupDecide d a none s1))

/-- Whether a wave waits in BTOPUP. -/
def inTopup : Instr → Bool
  | .btopup _ _ _ _ => true
  | .btopupZ _ _ => true
  | _ => false

/-- TOPUP_CREDIT (R345): the credit or request reaches its target, and the status returns. -/
def execTopupCredit (s : State) : Out :=
  event "TOPUP_CREDIT" (fun s => s.running s.w.die && s.w.isResident && s.w.waitsIn inTopup)
    (fun s =>
      match s.w.wait with
      | some (.issued (.btopup d a b c) _) => topupDecide d a (some (b, c)) s
      | some (.issued (.btopupZ d a) _) => topupDecide d a none s
      | _ => s) s

/-! ### YIELD (R137, R456) -/

/-- The resume PC of YIELD: the value of sa, or XPC for s0. -/
def yieldPc (s : State) (a : BitVec 5) : U64 := if a = 0 then s.w.bud.xpc.setWidth 64 else s.w.gs a

/-- YIELD (R137, R456, R457): the wave leaves once its lanes and everything that it has sent are done. -/
def execYieldW (a : BitVec 5) (s : State) : Out :=
  issueControl (.yieldW a) { noHandler := true, deps := [a], ticks := 0 } s (fun s1 =>
    if bits (yieldPc s1 a).toNat 0 2 ≠ 0 then .next (trapAt s1 0x06 (yieldPc s1 a))
    else
      let s2 := holdBlocked s1
      if s2.w.canSave && s2.w.lanesDone && !saveHeld s2 then .next (saveAndLeave s2 (yieldPc s1 a)) else .next (waiting (.yieldW a) 0 s2))

/-! ### Placement (R71, R102, R139, R148, R204) -/

/-- Whether the lanes of a group lie on powered quads that accept placements (R102, R204). -/
def lanesPowered (c : Cluster) (base lanes : Nat) : Bool :=
  (List.range 4).all (fun q => !(decide (base < 4 * q + 4 ∧ 4 * q < base + lanes)) || (c.qon.getLsbD q && !c.qpend.getLsbD q))

/-- The resident waves whose lane group shares a lane with a group (R204). -/
def groupLoad (s : State) (die cl base lanes : Nat) : Nat :=
  ((s.residents die cl).filter (fun w => decide (w.base < base + lanes ∧ base < w.base + w.lanes))).length

/-- The lane group with the fewest resident waves, ties to the lower base (R26, R204); none when no group is powered. -/
def laneGroup (s : State) (die cl lanes : Nat) : Option Nat :=
  (((List.range (16 / lanes)).map (· * lanes)).filter (fun b => lanesPowered (s.cluster die cl) b lanes)).foldl
    (fun (x : Option Nat) b =>
      match x with
      | none => some b
      | some m => if groupLoad s die cl b lanes < groupLoad s die cl m lanes then some b else some m) none

/-- The L1 units that must move so that a scratchpad of `kib` fits; none when it cannot fit (R148). -/
def scratchMove (s : State) (die cl kib : Nat) : Option Nat :=
  let c := s.cluster die cl
  let n := ceilDiv kib 32 - (c.usp - usedUnits s die cl)
  if n ≤ c.ul1 then some n else none

/-- L1 units moved to the scratchpad, and every sector dropped as a placement drops it (R148, R177). -/
def placeCarve (s : State) (die cl n : Nat) : State :=
  let c := s.cluster die cl
  s.setCluster die cl { c with ul1 := c.ul1 - n, usp := c.usp + n, l1 := [] }

/-- The QUOTA of each member of a team at its first placement (R71); none when no value satisfies the four conditions. DESIGN CHOICE
(log entry 61): R71 gives the largest QUOTA of one wave; the members of a team, placed together, all get the same largest one. -/
def firstQuota (s : State) (die cl : Nat) (h : Hdr) : Option Nat :=
  let ok (q : Nat) : Bool :=
    decide (h.floor ≤ q ∧ 1 ≤ q) && progress (s.cluster die cl).pool (s.quotas die cl 0 ++ List.replicate h.size (q, h.floor))
  match largestUpTo ok 0 h.qmax with
  | 0 => none
  | q + 1 => some (q + 1)

/-- Of the clusters of a die that a test accepts, the one with the fewest resident waves, ties to the lower number (R204). -/
def bestCluster (s : State) (die : Nat) (ok : Nat → Bool) : Option Nat :=
  ((List.range (s.die die).encl).filter ok).foldl
    (fun (x : Option Nat) c =>
      match x with
      | none => some c
      | some m => if (s.residents die c).length < (s.residents die m).length then some c else some m) none

/-- Whether a new team fits a cluster (R204). -/
def teamFits (s : State) (die : Nat) (h : Hdr) (cl : Nat) : Bool :=
  decide ((s.residents die cl).length + h.size ≤ 64) && (firstQuota s die cl h).isSome && (scratchMove s die cl h.spkib).isSome &&
    (laneGroup s die cl (2 ^ h.log2l)).isSome

/-- The bytes of a team's save region (R196). -/
def Hdr.regionBytes (h : Hdr) : Nat := h.size * 0x420000 + ceilDiv h.spkib 64 * 0x10000

/-- The budgets of a wave at its first placement (R139): the carve with INHERIT, otherwise the quanta. -/
def firstBudget (l : Launch) (e : Nat) : U64 × U64 :=
  if l.hdr.inherit then l.carves.getD e (0, 0) else (l.hdr.ibq, l.hdr.mbq)

/-- The vector configuration of a wave at its first placement (R62, R64, R69). -/
def firstCfg (h : Hdr) (q : Nat) : Vcfg :=
  let n := nregOf h.nregc
  { nreg := n, nregc := h.nregc, ewc := h.ewc, blkc := h.blkc, share := q / n
    maxvl := maxvlOf (2 ^ h.log2l) q n (ewOf h.ewc) (blkOf h.blkc), quota := q, qmax := h.qmax, floor := h.floor }

/-- Member `m` of team `t` of a launch as its first placement makes it (R197, R199): s1 is the argument, every other scalar
register 0, VL 0, and every control register at its reset value. -/
def newWave (l : Launch) (t m id team die cl base q stamp : Nat) : Wave :=
  let h := l.hdr
  let e := t * h.size + m
  let b := firstBudget l e
  { id := id, place := .resident die cl, hdr := h, team := team, member := m, anc := l.anc, asid := l.asid, sup := l.sup
    depth := l.depth, limit := l.limit, wid := h.dw2 + BitVec.ofNat 64 e, stamp := stamp, base := base, placed := true
    s := (Vector.replicate 32 0).set 1 l.arg, pc := h.entry, cfg := firstCfg h q, ctl := { dual := h.dual }
    bud := { ibgt := b.1, mbgt := b.2 } }

/-- Team `t` of a launch with its members placed on a cluster (R196, R204), the first `n` members only: all of them but at boot,
which places one wave (R269). -/
def placeTeam (s : State) (die cl base q n : Nat) (l : Launch) (t : Nat) : State :=
  let h := l.hdr
  let s1 := placeCarve s die cl ((scratchMove s die cl h.spkib).getD 0)
  let d := s1.die die
  let team : Team :=
    { die := die, cl := some cl, size := h.size, kib := h.spkib, base := BitVec.ofNat 64 (h.save + t * h.regionBytes)
      asid := l.asid, sup := l.sup, left := n, placed := true }
  let ws := (List.range n).map (fun m => newWave l t m (s1.nextWave + m) s1.nextTeam die cl base q (d.stamps + m))
  let s2 := (s1.setTeam s1.nextTeam team).setDie die { d with stamps := d.stamps + n }
  { s2 with others := s2.others ++ ws, nextWave := s2.nextWave + n, nextTeam := s2.nextTeam + 1 }

/-- A new team placed on a die, or none when no cluster satisfies R204. -/
def tryTeam (s : State) (die n : Nat) (l : Launch) (t : Nat) : Option State :=
  match bestCluster s die (teamFits s die l.hdr) with
  | none => none
  | some cl =>
    match firstQuota s die cl l.hdr, laneGroup s die cl (2 ^ l.hdr.log2l) with
    | some q, some base => some (placeTeam s die cl base q n l t)
    | _, _ => none

/-! ### Later placements (R139, R205, R213, R252) -/

/-- IBGT and MBGT at a later placement (R139). -/
def laterBudget (w : Wave) : U64 × U64 :=
  ((if w.hdr.capped then w.bud.remT else w.hdr.ibq) + w.bud.pendT, (if w.hdr.capped then w.bud.remS else w.hdr.mbq) + w.bud.pendS)

/-- The focused wave counted as resident on a cluster, with L1 units moved to extension until its saved QUOTA fits (R71, R148). -/
def enterCluster (s : State) (die cl : Nat) : State :=
  let s1 := s.mapW (fun w => { w with place := .resident die cl })
  extendUntil s1 die cl (quotaOk s1.w.cfg.quota) 16

/-- Whether the focused wave, which is saved, fits a cluster (R204, R205). -/
def waveFits (s : State) (die cl : Nat) : Bool :=
  let s1 := enterCluster s die cl
  decide ((s.residents die cl).length + 1 ≤ 64) && quotaOk s.w.cfg.quota s1 &&
    (match s.myTeam.cl with
     | some c => c == cl
     | none => (scratchMove s1 die cl s.myTeam.kib).isSome) &&
    (laneGroup s die cl s.w.lanes).isSome

/-- The scratchpad contents in an image's pages, from an offset. -/
def imageCells (m : List Host.Cell) : List Target → Nat → Nat → List Host.Cell
  | [], _, _ => []
  | .pkg pa :: t, off, n =>
    (m.filter (fun c => decide (pa ≤ c.1) && decide (c.1 < pa + min n 4096))).map (fun c => (c.1 - pa + off, c.2)) ++
      imageCells m t (off + 4096) (n - 4096)
  | _ :: t, off, n => imageCells m t (off + 4096) (n - 4096)

/-- The team's scratchpad brought to a cluster from its image (R205), where it is not resident. -/
def restoreScratch (s : State) (cl : Nat) : Except (BitVec 8 × U64) State :=
  let t := s.myTeam
  if t.cl.isSome then .ok s
  else
    match spanPas s Acc.load (t.base.toNat + t.size * 0x420000) t.bytes with
    | .error e => .error e
    | .ok pas => .ok (s.setTeam s.w.team { t with cl := some cl, sp := imageCells s.mem pas 0 t.bytes })

/-- The tiles that the unit of the focused wave's cluster has kept of it are the wave's again (R212). -/
def takeKept (s : State) : State :=
  let c := s.myCluster
  if c.tileOf = some s.w.id then
    (s.setMyCluster { c with kept := [], keptBad := [] }).mapW (fun w => { w with tiles := c.kept, badRows := c.keptBad })
  else s

/-- The targets still pending checked again at a placement, as ERET checks them (R241): the traps found before a save are not part of its
image. In handler mode ERET will do so. -/
def recheckPlaced (s : State) : State := if s.w.trp.inh then s else settleFrontier (recheck s s.w.vps)

/-- The placement of the focused wave on a cluster that it fits: the units, the scratchpad and the context; its budgets are set,
held VPs go on, and an owner of the matrix unit asks for it again (R139, R205, R213). -/
def placeSaved (s : State) (die cl base : Nat) : Except (BitVec 8 × U64) State := do
  let b := laterBudget (savedBudget s)
  let s1 := enterCluster s die cl
  let s2 := placeCarve s1 die cl (if s1.myTeam.cl.isSome then 0 else (scratchMove s1 die cl s1.myTeam.kib).getD 0)
  let s3 ← restoreScratch s2 cl
  let s4 ← restoreContext (s3.mapW (fun w => { w with
    base := base
    runs := w.runs.map (fun r => { r with stopped := false, suspended := false })
    bud := { w.bud with ibgt := b.1, mbgt := b.2, pendT := 0, pendS := 0 } }))
  let s5 := recheckPlaced (takeKept s4)
  if s5.w.wantsMat then .ok (joinMacq s5) else .ok s5

/-- A restore that faults (R252): the wave stays on its resume list until a TLBINV completes on the die, with a record of kind
0x32. -/
def restoreFaulted (s : State) (v : U64) : State :=
  (waveRecord s 0x32 0 false 0 0 s.w.pc v).mapW (fun w => { w with saveFault := true })

/-- A saved wave placed again on its die, or none when it cannot be placed now, its budget or a failed link among the reasons (R139, R262). -/
def trySaved (s : State) (die id : Nat) : Option State :=
  let me := s.w.id
  let s0 := s.focus id
  if saveHeld s0 || (laterBudget (savedBudget s0)).1 == 0 then none
  else
    match bestCluster s0 die (waveFits s0 die) with
    | none => none
    | some cl =>
      match laneGroup s0 die cl s0.w.lanes with
      | none => none
      | some base =>
        match placeSaved s0 die cl base with
        | .ok s1 => some (s1.focus me)
        | .error e => some ((restoreFaulted s0 e.2).focus me)

/-! ### The dispatcher (R202, R203) -/

/-- The order in which a wave left, for the resume list. -/
def Wave.leftAs (w : Wave) : Nat :=
  match w.place with
  | .saved _ o => o
  | _ => 0

/-- A wave inserted in the order of leaving. -/
def insertLeft (w : Wave) : List Wave → List Wave
  | [] => [w]
  | x :: t => if w.leftAs < x.leftAs then w :: x :: t else x :: insertLeft w t

/-- The resume list of a class of a die, oldest first; a wave whose restore faulted is not tried before the next TLBINV. -/
def resumeList (s : State) (die cls : Nat) : List Wave :=
  (s.waves.filter (fun w => w.isSaved && decide (w.die = die) && w.hdr.cls == cls && !w.saveFault)).foldl (fun l w => insertLeft w l) []

/-- The next team of the task-queue entry at a place taken from the queue: the entry goes with its last team (R202). -/
def takeTask (s : State) (die k : Nat) : State :=
  let d := s.die die
  s.setDie die { d with tasks := (d.tasks.take k) ++
    (match d.tasks[k]? with
     | none => []
     | some l => if l.next + 1 < l.hdr.tcount then [{ l with next := l.next + 1 }] else []) ++ d.tasks.drop (k + 1) }

/-- A task-queue entry's next team placed, or none when it cannot be placed now. -/
def tryTask (s : State) (die k : Nat) : Option State :=
  match (s.die die).tasks[k]? with
  | none => none
  | some l => (tryTeam s die l.hdr.size l l.next).map (fun s1 => takeTask s1 die k)

/-- The task-queue entries of a class, oldest first, by their places. -/
def taskList (s : State) (die cls : Nat) : List Nat :=
  (List.range (s.die die).tasks.length).filter (fun k => ((s.die die).tasks[k]?.map (fun l => l.hdr.cls == cls)).getD false)

/-- What the dispatcher does next (R203): the first item, by class and age, that can be placed, placed whole. -/
def dispatchOne (s : State) (die : Nat) : Option State :=
  [3, 2, 1, 0].findSome? (fun c =>
    match (resumeList s die c).findSome? (fun w => trySaved s die w.id) with
    | some s1 => some s1
    | none => (taskList s die c).findSome? (tryTask s die))

/-- DISPATCH. -/
def execDispatch (d : BitVec 4) (s : State) : Out :=
  if s.ndie ≤ d.toNat then .refused (.noSuchUnit "DISPATCH")
  else
    event "DISPATCH" (fun s => s.running d.toNat && (dispatchOne s d.toNat).isSome) (fun s => (dispatchOne s d.toNat).getD s) s

end Sys2Proof.Machine
end

