-- ==== Sys2Proof/Machine/QueueEvents.lean ====
section
/-! DEFINITION. What the machine does by itself with the vector instruction queue, the blocks, the cross-element queues and the
register pool (R32, R36 to R54, R91 to R99, R128, R132, R154, R246, R323, R448). -/

namespace Sys2Proof.Machine

/-! ### The vector instruction queue (R36 to R38) -/

/-- The effect of a queue entry whose word stands for an instruction. -/
def queueEffect (i : Instr) (e : QEntry) (s : State) : State :=
  match i with
  | .vsetcfg n w b => effVsetcfg n w b s
  | .vsetvl d _ g => effVsetvl d (g == 1) e.x s
  | .reggive n => effReggive n.toNat e s
  | .regclaim n => effRegclaim n.toNat e s
  | .velect d k v => effVelect d k v.toNat e s
  | .velectIdx d k => effVelectIdx d k s
  | .vballot d k w => effVballot d k w.toNat s
  | .mop d a b f sd => effMop d a b f sd s
  | .vld m d _ x k p o => effLoad (modeOf x) false m d k p o e s
  | .vgath m d _ x k p o => effLoad (.index x.toNat) false m d k p o e s
  | .vgathC m d _ x k p o => effLoad (.index x.toNat) true m d k p o e s
  | .vst m d l _ x k p o => effStore (modeOf x) m d l k p o e s
  | .vscat m d l _ x k p o => effStore (.index x.toNat) m d l k p o e s
  | .vamo m d _ x k p o => effVamo (modeOf x) m d k p o e s
  | .bkred m d _ x k p o => effBkred m d x k p o e s
  | .wmlink n _ _ w => effWmlink n w e s
  | .wmpub _ _ => effWmpub e s
  | .barrive _ _ _ => effBarrive e s
  | .mma t a b f r w => effMma t a b f r w e s
  | .mmas t a b f r w p x => effMmas t a b f r w p x e s
  | .mscacc d sr g f r p z => effMscacc d sr g f r p z e s
  | .mmovTileToReg t v r c => effMmovTileToReg t v r c e s
  | .mmovRegToTile t v r c => effMmovRegToTile t v r c e s
  | .mzero t r => effMzero [t.toNat] r s
  | .mzeroAll r => effMzero [0, 1, 2, 3] r s
  | .msave t a p => effMsave t a p e s
  | .mrest t a p => effMrest t a p e s
  | .mepi st _ _ _ _ c t _ => effMepi st c t e s
  | _ => s

/-- The oldest entry of the queue that may take effect, with its instruction, when it is no VFETCH and nothing stands ahead of it. -/
def queueHead (s : State) : Option (Instr × QEntry) :=
  if !s.w.fetchesNow.isEmpty then none
  else
    match s.w.vqNow with
    | [] => none
    | e :: _ => if opOf e.word = 0x45 then none else some (instrOfWord e.word, e)

/-- VECTOR_QUEUE_ENTRY_EFFECT (R37): the oldest entry takes effect, traps, or waits for its registers. -/
def execVectorQueueEntryEffect (s : State) : Out :=
  event "VECTOR_QUEUE_ENTRY_EFFECT" (fun s => queueMoves s && (queueHead s).isSome)
    (fun s =>
      match queueHead s with
      | some (i, e) => settleWalks 1 (queueEffect i e s)
      | none => s) s

/-- The registers that the words of a block name. -/
def blockRegs (ws : List (BitVec 32)) : List Nat := ws.flatMap wordRegs

/-- The VPs that a VFETCH of a mask form takes: the active ones below VL, and in a continuation only those idle or parked (R36,
R135). -/
def fetchVps (w : Wave) (m : BitVec 1) : List Nat :=
  (List.range w.cfg.vl).filter (fun v => w.active0 m v &&
    (!w.ctl.incont ||
      (match w.vp v with
       | none => true
       | some (.parked _) => true
       | _ => false)))

/-- A block fetched for VPs from the queue: it waits for its words (R206), for matrix work on its registers (R222) and for the die's grant
(R284); a failure traps (R323). -/
def fetchBlock (s : State) (a : U64) (vs : List Nat) (start : BitVec 32 → List (BitVec 32) → Wave → Wave) : State :=
  match awaitBlock 1 none a s with
  | some t => t
  | none =>
    match namedBlock s a with
    | .error (c, v) => settleWalks 1 (queueTrap s (c, vs.headD 0, v))
    | .ok (h, ws) => if !matFree s (blockRegs ws) || blockDelayed s then s else settleWalks 1 (s.mapW (start h ws))

/-- A VFETCH at the head of the queue takes effect (R36): 1 tick settled, its reservation carried to the block. -/
def dispatchFetch (s : State) (e : QEntry) : State :=
  let vs := fetchVps s.w (BitVec.ofNat 1 (bits e.word.toNat 23 1))
  fetchBlock s e.x vs (fun h ws w => (w.dropEntry.startRun .lockstep e.x h ws vs (e.rsvT - 1, e.rsvS)).completeRun w.freshRun)

/-- The VFETCH at the head of the queue, when nothing stands ahead of it. -/
def fetchHead (w : Wave) : Option QEntry :=
  if !w.fetchesNow.isEmpty then none else (match w.vqNow with | e :: _ => if opOf e.word = 0x45 then some e else none | [] => none)

/-- VFETCH_DISPATCH. -/
def execVfetchDispatch (s : State) : Out :=
  event "VFETCH_DISPATCH" (fun s => queueMoves s && (fetchHead s.w).isSome)
    (fun s =>
      match fetchHead s.w with
      | some e => dispatchFetch s e
      | none => s) s

/-- The VPs that wait for a fetch ahead of the queue. -/
def Wave.caughtVps (w : Wave) (a : U64) : List Nat :=
  (w.vps.filter (fun e => match e.2 with | .caught b => b == a | _ => false)).map Prod.fst

/-- The oldest fetch ahead of the queue takes effect (R38, R48, R143). -/
def takeFetch (s : State) (f : Fetch) : State :=
  let vs := s.w.caughtVps f.addr
  fetchBlock s f.addr vs (fun h ws w =>
    (w.dropFetch.startRun (if f.resent then .resent else .catchGroup) f.addr h ws vs (0, 0)).completeRun w.freshRun)

/-- Whether the oldest fetch ahead of the queue may take effect and is of a kind. -/
def fetchReady (resent : Bool) (s : State) : Bool :=
  queueMoves s && (match s.w.fetchesNow with | f :: _ => f.resent == resent | [] => false)

/-- CATCH_FETCH (R48): the block at a catch address for the VPs parked on it. -/
def execCatchFetch (s : State) : Out :=
  event "CATCH_FETCH" (fetchReady false)
    (fun s =>
      match s.w.fetchesNow with
      | f :: _ => takeFetch s f
      | [] => s) s

/-- RESENT_FETCH (R143): a block that was flushed starts again for its lockstep VPs. -/
def execResentFetch (s : State) : Out :=
  event "RESENT_FETCH" (fetchReady true)
    (fun s =>
      match s.w.fetchesNow with
      | f :: _ => takeFetch s f
      | [] => s) s

/-- VCATCH_COMPLETE (R48). -/
def execVcatchComplete (s : State) : Out :=
  event "VCATCH_COMPLETE"
    (fun s => s.running s.w.die && s.w.isResident && catchReady s.w && s.w.waitsIn (fun i => match i with | .vcatch _ => true | _ => false))
    (fun s =>
      match s.w.wait with
      | some (.issued (.vcatch d) _) => catchDo d s
      | _ => s) s

/-- EARLY_LOAD_SEND (R154): a queued vector load fills its load buffer. -/
def execEarlyLoadSend (k : BitVec 5) (s : State) : Out :=
  event "EARLY_LOAD_SEND" (fun s => s.running s.w.die && earlyReady s k.toNat) (sendEarly k.toNat) s

/-! ### Lanes (R43 to R46, R128, R246) -/

/-- Whether the wave's lanes may take up a thread-mode block: it is in the active set (R206), not in handler mode, not stopped, and no
synchronous trap waits (R236, R239). -/
def lanesRun (s : State) : Bool :=
  let w := s.w
  s.running w.die && w.isResident && w.active && !w.trp.inh && !w.saveFault && !w.frozen && w.doubleCause.isNone &&
    w.traps.all (fun t => t.src == 3)

/-- Whether a lane may start a block: not in a continuation (R135), before a pre-emption (R142), or while the wave leaves (R137). A suspended
block goes on all the same. -/
def Wave.mayBegin (w : Wave) : Bool := !w.ctl.incont && !w.bud.preempt && !w.departing

/-- A suspended run of a lane at an address that has a VP which is not blocked any more (R44). -/
def Wave.suspendedRun (w : Wave) (j : Nat) (a : U64) : Option Run :=
  w.runs.find? (fun r => r.kind == .thread j && r.addr == a && r.suspended && !r.stopped &&
    (w.runVps r.id).any (fun e => !e.2.isBlocked))

/-- The VPs of an address on a lane that wait to start it. -/
def Wave.waitingVps (w : Wave) (j : Nat) (a : U64) : List Nat :=
  (w.vps.filter (fun e => w.laneOf e.1 == j && decide (e.2 = .thread a) && !w.dbg.vps.contains e.1)).map Prod.fst

/-- Whether an entry has work for a lane. -/
def Wave.entryReady (w : Wave) (j : Nat) (a : U64) : Bool := (w.mayBegin && !(w.waitingVps j a).isEmpty) || (w.suspendedRun j a).isSome

/-- The entry that a lane chooses (R43): the highest priority, then the lower address. -/
def Wave.laneEntry (w : Wave) (j : Nat) : Option Entry :=
  (w.frontier.filter (fun e => w.entryReady j e.addr)).foldl
    (fun (b : Option Entry) e =>
      match b with
      | none => some e
      | some m => if m.prio < e.prio ∨ (m.prio = e.prio ∧ e.addr.toNat < m.addr.toNat) then some e else some m) none

/-- The serial VP with its address, when it waits to start on a lane (R46). -/
def Wave.serialOn (w : Wave) (j : Nat) : Option (Nat × U64) :=
  match w.serialPick with
  | none => none
  | some v =>
    if w.laneOf v ≠ j ∨ !w.ctl.serial ∨ w.dbg.vps.contains v then none
    else
      match w.vp v with
      | some (.thread a) => if w.mayBegin then some (v, a) else none
      | some (.run r _ _ _ _) => (w.run? r).bind (fun x => if x.suspended && (w.suspendedRun j x.addr).isSome then some (v, x.addr) else none)
      | _ => none

/-- VPs that end because the block they name cannot be fetched or is no block any more (R246). -/
def faultVps (s : State) (vs : List Nat) : State :=
  settleFrontier (s.mapW (fun w => vs.foldl (fun x v => (x.setMaskBit 7 v true).idleVp v) w))

/-- The physical lane of the focused wave's lane `j`, whose thread-fetch cache it uses (R43). -/
def State.ownLane (s : State) (j : Nat) : Option Nat := some (s.w.base + j)

/-- A lane starts the block at an address for VPs in the thread state: it waits for the words (R206), the header is read again, the
reservation is checked and deducted, and a shortfall raises a pending exhaustion (R128, R132, R246). DESIGN CHOICE (log entry 63): where
lanes fall short for different causes before the boundary, the cause of the first one stands; R132 does not say which. -/
def startThread (s : State) (j : Nat) (a : U64) (vs : List Nat) : State :=
  match awaitBlock (2 + j) (s.ownLane j) a s with
  | some t => t
  | none => settleWalks (2 + j) (
    match namedBlockIn (s.cacheOf (s.ownLane j)) s a with
    | .error (c, v) =>
      if c = 0x0F then raise s { src := 1, cause := c, vp := vs.headD 0, val := v, vps := vs } else faultVps s vs
    | .ok (h, ws) =>
      let q := reservation ws vs.length
      if !s.w.fitsT q.1 then s.mapW (fun w => { w with bud := { w.bud with exhaust := some (w.bud.exhaust.getD 0x20) } })
      else if !s.w.fitsS q.2 then s.mapW (fun w => { w with bud := { w.bud with exhaust := some (w.bud.exhaust.getD 0x21) } })
      else s.mapW (fun w => (w.deduct q.1 q.2).startRun (.thread j) a h ws vs q))

/-- A lane takes up an address: a suspended run goes on at the blocked instruction, otherwise the waiting VPs start (R44). -/
def laneTakes (s : State) (j : Nat) (a : U64) (vs : List Nat) : State :=
  match s.w.suspendedRun j a with
  | some r => s.mapW (fun w => w.setRun { r with suspended := false })
  | none => startThread s j a vs

/-- Whether lane `j` is free for a block of the focused wave: in none of its own, and none of another wave holds it (R44). -/
def laneFree (s : State) (j : Nat) : Bool := decide (j < s.w.lanes) && !s.w.laneBusy j && !laneTaken s j

/-- What lane `j` takes up next (R43, R46): the serial VP first, otherwise the entry that it chooses. -/
def Wave.laneChoice (w : Wave) (j : Nat) : Option (U64 × List Nat) :=
  match w.serialOn j with
  | some (v, a) => some (a, [v])
  | none => (w.laneEntry j).map (fun e => (e.addr, w.waitingVps j e.addr))

/-- Whether lane `j` would start a block now and deduct its reservation. -/
def startsNow (s : State) (j : Nat) : Bool :=
  laneFree s j &&
    (match s.w.laneChoice j with
     | none => false
     | some (a, vs) =>
       (s.w.suspendedRun j a).isNone && (awaitBlock (2 + j) (s.ownLane j) a s).isNone &&
         (match namedBlockIn (s.cacheOf (s.ownLane j)) s a with
          | .error _ => false
          | .ok (_, ws) => s.w.fitsT (reservation ws vs.length).1 && s.w.fitsS (reservation ws vs.length).2))

/-- Whether no lower lane would start a block now: lanes that start blocks together deduct in ascending order (R128). -/
def laneTurn (s : State) (j : Nat) : Bool := (List.range j).all (fun i => !startsNow s i)

/-- THREAD_BLOCK_START (R43, R46, R128): the serial VP first, otherwise the entry that the lane chooses. -/
def execThreadBlockStart (l : BitVec 4) (s : State) : Out :=
  let j := l.toNat
  event "THREAD_BLOCK_START" (fun s => lanesRun s && laneFree s j && laneTurn s j && (s.w.laneChoice j).isSome)
    (fun s =>
      match s.w.serialOn j with
      | some (v, a) => laneTakes (s.mapW (fun w => { w with serialVp := some v })) j a [v]
      | none =>
        match s.w.laneEntry j with
        | some e => laneTakes s j e.addr (s.w.waitingVps j e.addr)
        | none => s) s

/-- What a VP at the end of its block waits for: the header of its latched target (R206, R323). -/
def endWaits (s : State) (v : Nat) : Option State :=
  match s.w.vp v with
  | some (.run _ _ _ (some (a, _)) _) => awaitHeader (2 + s.w.laneOf v) none a s
  | _ => none

/-- BLOCK_COMPLETE (R32): a VP that has passed its block's last word leaves it; of those that can, lane by lane and by slot (R42). -/
def execBlockComplete (v : BitVec 13) (s : State) : Out :=
  event "BLOCK_COMPLETE"
    (fun s => s.running s.w.die && s.w.isResident && !s.w.trp.inh && s.w.atEnd v.toNat &&
      ((endWaits s v.toNat).isSome || s.w.ending.find? (fun u => (endWaits s u).isNone) == some v.toNat))
    (fun s =>
      match endWaits s v.toNat with
      | some t => t
      | none => settleWalks (2 + s.w.laneOf v.toNat) (endBlock s v.toNat)) s

/-- ENTRY_STARVATION_ISSUE (R45): an entry is issued once on a lane ahead of the order of R43. -/
def execEntryStarvationIssue (l k : BitVec 4) (s : State) : Out :=
  let j := l.toNat
  event "ENTRY_STARVATION_ISSUE"
    (fun s => lanesRun s && laneFree s j && laneTurn s j &&
      (match s.w.frontier[k.toNat]? with | some e => s.w.entryReady j e.addr | none => false))
    (fun s =>
      match s.w.frontier[k.toNat]? with
      | some e => laneTakes s j e.addr (s.w.waitingVps j e.addr)
      | none => s) s

/-! ### Cross-element queues (R44, R52, R54, R448) -/

/-- Whether a VP can make no step of its block for want of a queue entry or of room. -/
def Wave.stuckOn (w : Wave) (j : Nat) (r : Run) : Bool :=
  r.kind == .thread j && !r.suspended && !r.stopped && (w.runVps r.id).any (fun e => e.2.isBlocked) &&
    (w.runVps r.id).all (fun e => !w.canStep e && !w.atEnd e.1)

/-- QUEUE_BLOCK_SUSPEND (R44): a lane leaves a blocked entry, whose latches are invalid when it resumes. -/
def execQueueBlockSuspend (l : BitVec 4) (s : State) : Out :=
  event "QUEUE_BLOCK_SUSPEND" (fun s => s.running s.w.die && s.w.isResident && s.w.runs.any (s.w.stuckOn l.toNat))
    (fun s =>
      match s.w.runs.find? (s.w.stuckOn l.toNat) with
      | none => s
      | some r => s.mapW (fun w => { w.setRun { r with suspended := true } with latches := ((w.runVps r.id).map Prod.fst).foldl lkDel w.latches })) s

/-- Whether a blocked VP finds what it waits for: an entry for `xin`, room for what it sends (R52). -/
def Wave.unblocks (w : Wave) (v : Nat) : Bool :=
  match w.vp v with
  | some (.run r pos rep _ true) =>
    (match w.run? r with
     | none => false
     | some x =>
       let word := wordAt x.words pos rep
       (!namesXin word || (w.xinEntry v).isSome) && (opOf word != 0x69 || decide ((w.boundary (w.sendBnd v)).length < 4)))
  | _ => false

/-- A blocked VP resumes. -/
def unblockVp (s : State) (v : Nat) : State :=
  match s.w.vp v with
  | some (.run r pos rep t _) => s.mapW (fun w => w.setVp v (.run r pos rep t false))
  | _ => s

/-- Whether a control thread that is blocked on a cross-element queue finds what it waits for. -/
def controlUnblocks (s : State) : Bool :=
  match s.w.wait with
  | some (.issued (.vxtake _) _) => s.w.qseg != .spilled && !(s.w.boundary takeBnd).isEmpty
  | some (.issued (.vxseed _) _) =>
    s.w.vqNow.isEmpty && s.w.fetchesNow.isEmpty && decide ((s.w.boundary seedBnd).length < 4) && s.w.qseg != .spilled &&
      (s.w.qseg != .released || canAlloc (seedRoom s) 1)
  | _ => false

/-- The control thread completes its VXSEED or VXTAKE. -/
def unblockControl (s : State) : State :=
  match s.w.wait with
  | some (.issued (.vxtake d) _) =>
    (match s.w.boundary takeBnd with
     | e :: _ => advance (setS (popTake s) d e.val)
     | [] => s)
  | some (.issued (.vxseed a) _) => advance (pushX (allocQseg (seedRoom s)) { bnd := seedBnd, vp := 0, val := s.w.gs a })
  | _ => s

/-- CROSS_ELEMENT_UNBLOCK (R52): a VP, or the control thread, resumes. -/
def execCrossElementUnblock (c : BitVec 1) (v : BitVec 13) (s : State) : Out :=
  event "CROSS_ELEMENT_UNBLOCK"
    (fun s => s.running s.w.die && s.w.isResident && (if c = 1 then controlUnblocks s else s.w.unblocks v.toNat))
    (fun s => if c = 1 then unblockControl s else unblockVp s v.toNat) s

/-- Whether every VP that is neither idle nor parked is blocked on a cross-element queue for good, and there is one (R54); a VP of a catch
fetch stays parked (R38). -/
def allBlocked (w : Wave) : Bool :=
  w.vps.any (fun e => e.2.isBlocked) && w.vps.all (fun e =>
    match e.2 with
    | .parked _ => true
    | .caught a => w.fetches.any (fun f => f.addr == a && !f.resent)
    | .run _ _ _ _ b => b && !w.unblocks e.1
    | _ => false)

/-- Whether the control thread waits on the vector instruction queue or in VCATCH (R54): for a place in it, for a scalar that one of its
entries delivers (R473), or in an instruction that waits for its entries. -/
def waitsOnQueue (w : Wave) : Bool :=
  match w.wait with
  | none => false
  | some (.stall .queue) => decide (32 ≤ w.queued)
  | some (.stall (.scalar r)) => w.vq.any (fun e => queueDest e.word == some r)
  | some (.stall _) => false
  | some (.issued i p) =>
    match i with
    | .vcatch _ => true
    | .brany _ _ => true
    | .brall _ _ => true
    | .brnone _ _ => true
    | .crrd _ _ => true
    | .crwr _ _ => true
    | .fflagsAccess _ _ => true
    | .fence _ _ => p == 0
    | .xfence _ _ _ => p == 0
    | .vxseed _ => !w.vqNow.isEmpty || !w.fetchesNow.isEmpty
    | .regclaim _ => true
    | .mrel => w.mat.isEmpty && !matrixIdle w
    | .tlbinvPage _ _ => !w.vqNow.isEmpty || !w.fetchesNow.isEmpty
    | .tlbinvAsid _ => !w.vqNow.isEmpty || !w.fetchesNow.isEmpty
    | .tlbinvAll => !w.vqNow.isEmpty || !w.fetchesNow.isEmpty
    | _ => false

/-- Whether the control thread is blocked in VXTAKE with the take queue empty. -/
def blockedTake (w : Wave) : Bool := w.waitsIn (fun i => match i with | .vxtake _ => true | _ => false) && (w.boundary takeBnd).isEmpty && w.qseg != .spilled

/-- Whether a deadlock may be reported: the wave runs, is not in handler mode, and has no trap to take. -/
def mayTrap (s : State) : Bool := s.running s.w.die && s.w.isResident && !s.w.trp.inh && s.w.traps.isEmpty && s.w.doubleCause.isNone

/-- QUEUE_DEADLOCK_TRAP (R54). -/
def execQueueDeadlockTrap (s : State) : Out :=
  event "QUEUE_DEADLOCK_TRAP"
    (fun s => mayTrap s && ((allBlocked s.w && waitsOnQueue s.w) ||
      (blockedTake s.w && s.w.quiescent && s.w.vq.isEmpty && s.w.fetches.isEmpty)))
    (fun s => raise s { src := 3, cause := 0x13 }) s

/-- VXTAKE_DEADLOCK_TRAP (R448). -/
def execVxtakeDeadlockTrap (s : State) : Out :=
  event "VXTAKE_DEADLOCK_TRAP" (fun s => mayTrap s && blockedTake s.w && allBlocked s.w) (fun s => raise s { src := 2, cause := 0x13 }) s

/-! ### The register pool (R91 to R95) -/

/-- The segments per lane that the wave waits for. -/
def segsWanted (w : Wave) : Nat := max w.segNeed (w.want.foldl (fun x v => max x (refillSegs w v)) 0)

/-- SPILL_ENGINE (R91): victims are spilled until the focused wave's request fits. -/
def execSpillEngine (s : State) : Out :=
  event "SPILL_ENGINE"
    (fun s => s.running s.w.die && s.w.isResident && !poolHas s (segsWanted s.w) && ((victimWave s).bind victimReg).isSome && !spillHeld s)
    (fun s => (spillUntil s (segsWanted s.w) 4200).mapW (fun w => { w with segNeed := 0 })) s

/-- Whether a register, or the queue segment (64), is spilled. -/
def Wave.isSpilled (w : Wave) (v : Nat) : Bool := if v = 64 then w.qseg == .spilled else w.spilled v

/-- REFILL (R93): a spilled register that a reader waits for is read back, the wave's own registers making room in its quota. -/
def execRefill (v : BitVec 7) (s : State) : Out :=
  event "REFILL"
    (fun s => s.running s.w.die && s.w.isResident && decide (v.toNat ≤ 64) && s.w.want.contains v.toNat && s.w.isSpilled v.toNat &&
      poolHas (makeRoom s (refillSegs s.w v.toNat)) (refillSegs s.w v.toNat) && !s.w.spillBad &&
      !(!s.pkg.failedLinks.isEmpty && spanHeld s (slotSpan s v.toNat)))
    (fun s =>
      let s1 := makeRoom s (refillSegs s.w v.toNat)
      if canAlloc s1 (refillSegs s.w v.toNat) then refillOwn s1 v.toNat else s1) s

/-! ### Claims (R98, R99) -/

/-- REGCLAIM_GRANT (R98). -/
def execRegclaimGrant (s : State) : Out :=
  event "REGCLAIM_GRANT" (fun s => claimBlocked s && claimFits s ((s.w.claim?).getD 0)) (fun s => grantClaim s ((s.w.claim?).getD 0)) s

/-- The segments per lane that a wave's claim asks for. -/
def claimSegs (w : Wave) : Nat := (w.claim?).getD 0 * w.cfg.share

/-- Whether the focused wave's team is in a claim deadlock in which the focused wave is the oldest (R99). -/
def claimDead (s : State) : Bool :=
  claimBlocked s && s.w.traps.isEmpty && (teamViews s).all (fun v => v.w.isResident && claimBlocked v && decide (v.myTeam.tfree < claimSegs v.w) &&
    decide (s.w.stamp ≤ v.w.stamp))

/-- CLAIM_DEADLOCK (R99): the oldest blocked wave takes CLAIMDL; its claim stays the oldest entry. -/
def execClaimDeadlock (s : State) : Out :=
  event "CLAIM_DEADLOCK" claimDead
    (fun s => raise (pastClaim s) { src := 2, cause := 0x0A, val := BitVec.ofNat 64 ((s.w.claim?).getD 0) }) s

end Sys2Proof.Machine
end

