-- ==== Sys2Proof/Machine/SchedEvents.lean ====
section
/-! DEFINITION. Trap entry, forced entry, pre-emption and the forced full save, the active and pending sets, quad power, and the
matrix unit's grants and completions (R102, R132 to R137, R142, R206 to R208, R211 to R213, R222, R236 to R240, R346). -/

namespace Sys2Proof.Machine

/-! ### Traps (R236, R237) -/

/-- The trap of the pending ones that is taken (R236): SRC 2, then SRC 1 with the lowest VP, then the oldest of SRC 3. -/
def dueTrap (l : List PTrap) : Option PTrap :=
  match l.find? (fun t => t.src == 2) with
  | some t => some t
  | none =>
    match (l.filter (fun t => t.src == 1)).foldl (fun (b : Option PTrap) t =>
      match b with
      | none => some t
      | some m => if t.vp < m.vp then some t else some m) none with
    | some t => some t
    | none => l.head?

/-- Whether the focused wave is resident and its die runs. -/
def onDuty (s : State) : Bool := s.running s.w.die && s.w.isResident

/-- Whether a trap is due at the control thread's boundary; a wave that the debugger has stopped takes it later (R257). -/
def trapDue (s : State) : Bool :=
  !s.w.trp.inh && !s.w.frozen && !s.w.leaving && s.w.doubleCause.isNone && !s.w.saveFault && s.w.atBoundary && (dueTrap s.w.traps).isSome

/-- The due trap entered (R237): an asynchronous one leaves the list of pending traps, IW and VP are 0 where R235 says so. -/
def takeTrap (s : State) (t : PTrap) : State :=
  let s1 := abandon s
  let s2 := if t.src = 3 then s1.mapW (fun w => { w with traps := w.traps.erase t }) else s1
  enterTrap s2 t.src t.cause (if t.src = 1 then t.iw else 0) (if t.src = 3 then 0 else t.vp) t.val s2.w.pc t.vps t.spill

/-- TRAP_ENTRY: the due trap is taken; a double trap whose context waited to be saved ends. -/
def execTrapEntry (s : State) : Out :=
  event "TRAP_ENTRY"
    (fun s => onDuty s && (trapDue s || (s.w.doubleCause.isSome && s.w.canSave && !s.w.saveFault && !saveHeld s)))
    (fun s =>
      if s.w.doubleCause.isSome then finishDouble s
      else
        match dueTrap s.w.traps with
        | some t => takeTrap s t
        | none => s) s

/-! ### Exhaustion and pre-emption (R132 to R137, R142, R239) -/

/-- What a pre-emption request does before the forced entry (R142, steps 1 to 4). -/
def beginPreempt (s : State) : State :=
  (resolveRuns (s.mapW (fun w => { w with bud := { w.bud with ibgt := 0, exhaust := none } }))).mapW (fun w =>
    { w with bud := { w.bud with preempt := true } })

/-- A pre-emption request that is to be taken after a trap, or after ERET (R132, R239). -/
def deferPreempt (s : State) : State := s.mapW (fun w => { w with bud := { w.bud with preempt := true, deferred := true } })

/-- PREEMPTION_REQUEST (R142): deferred in handler mode (R239), and where a synchronous trap is taken first (R132). -/
def execPreemptionRequest (s : State) : Out :=
  event "PREEMPTION_REQUEST" (fun s => onDuty s && s.w.bud.preemptSent)
    (fun s =>
      let s1 := s.mapW (fun w => { w with bud := { w.bud with preemptSent := false } })
      if s.w.trp.inh || s.w.traps.any (fun t => t.src != 3) then deferPreempt s1 else beginPreempt s1) s

/-- Whether a pre-emption request or an exhaustion is taken at the control thread's boundary (R132): after a trap, and not in handler mode;
of a wave that the debugger has stopped, only a pre-emption request (R257). -/
def entryDue (s : State) : Bool :=
  !s.w.trp.inh && !s.w.departing && s.w.doubleCause.isNone && !s.w.saveFault && s.w.atBoundary && ((dueTrap s.w.traps).isNone || s.w.frozen) &&
    (s.w.bud.preempt || (s.w.bud.exhaust.isSome && !s.w.frozen))

/-- The synchronous traps of blocks that a stop has held, which recur when the blocks go on (R236, R257). -/
def dropStopped (s : State) : State :=
  if s.w.frozen then s.mapW (fun w => { w with traps := w.traps.filter (fun t => t.src == 3) }) else s

/-- FORCED_ENTRY (R134): the pre-emption request first, then exhaustion; a request that was deferred is begun now (R142, R239). A failed
link may hold the read of the continuation table (R262). -/
def execForcedEntry (s : State) : Out :=
  event "FORCED_ENTRY" (fun s => onDuty s && entryDue s && !contHeld s)
    (fun s =>
      if s.w.bud.preempt then forcedEntryAt (dropStopped (if s.w.bud.deferred then beginPreempt s else s)) 0x22
      else forcedEntryAt s (s.w.bud.exhaust.getD 0x20)) s

/-- GRACE_TIMER_EXPIRY (R136): the save begins at the control thread's boundary, and in handler mode after ERET (R239); a debug stop holds the
timer (R257). -/
def execGraceTimerExpiry (s : State) : Out :=
  event "GRACE_TIMER_EXPIRY" (fun s => onDuty s && s.w.ctl.incont && s.w.bud.grace && !s.w.departing && !s.w.anyStopped)
    (fun s => s.mapW (fun w => { w with bud := { w.bud with grace := false, graceHit := true } })) s

/-- Whether the save of an expired grace timer begins. -/
def graceDue (s : State) : Bool := s.w.bud.graceHit && !s.w.trp.inh && !s.w.anyStopped && !s.w.departing && s.w.atBoundary && s.w.doubleCause.isNone && (dueTrap s.w.traps).isNone

/-- Blocks held for a save that waits: those blocked on a cross-element queue (R137), those that the debugger has stopped (R257), and all of
them when one has trapped, since a wave that leaves takes no trap and the work recurs after restore (R236). -/
def holdForSave (s : State) : State :=
  if s.w.traps.any (fun t => t.src != 3) then
    (s.w.runs.foldl (fun x r => stopRun x r) s).mapW (fun w => { w with traps := w.traps.filter (fun t => t.src == 3) })
  else holdBlocked (s.w.runs.foldl (fun x r => if x.w.debugHolds r then stopRun x r else x) s)

/-- Whether the wave's save can be written now (R137); a failed link may hold it (R262). -/
def saveReady (s : State) : Bool :=
  let s1 := holdForSave s
  s.w.leaving && !s.w.saveFault && s1.w.canSave && (s1.w.lanesDone || s1.w.trp.inh) && !saveHeld s1

/-- FORCED_FULL_SAVE (R136, R137): an expired grace timer starts it; once nothing is in flight the context is written and the wave
leaves. -/
def execForcedFullSave (s : State) : Out :=
  event "FORCED_FULL_SAVE" (fun s => onDuty s && (saveReady s || graceDue s))
    (fun s =>
      if s.w.leaving then finishSave (holdForSave s)
      else beginSave (s.mapW (fun w => { w with bud := { w.bud with graceHit := false } })) (s.w.bud.xpc.setWidth 64) none) s

/-- The cause of the deferred event that a handler has kept waiting (R239). -/
def deferredCause (w : Wave) : BitVec 8 := if w.bud.preempt then 0x22 else w.bud.exhaust.getD w.bud.xcause

/-- HANDLER_DEFER_LIMIT (R239): a forced full save in handler mode, resuming at the handler's next instruction; a debug stop holds the limit
(R257). -/
def execHandlerDeferLimit (s : State) : Out :=
  event "HANDLER_DEFER_LIMIT"
    (fun s => onDuty s && s.w.trp.inh && !s.w.departing && s.w.doubleCause.isNone && s.w.atBoundary && !s.w.anyStopped &&
      (s.w.bud.preempt || s.w.bud.exhaust.isSome || s.w.bud.graceHit))
    (fun s => let s1 := abandon s; beginSave s1 s1.w.pc (some (deferredCause s.w))) s

/-! ### Active and pending sets (R206, R207) -/

/-- Whether a wave's save at a YIELD can be written now. -/
def yieldReady (s : State) : Bool := let s1 := holdBlocked s; s1.w.canSave && s1.w.lanesDone && !saveHeld s1

/-- Whether what the control thread waits for is still to come; its next step would only wait on. -/
def stillWaits (s : State) : Bool :=
  match s.w.wait with
  | none => false
  | some (.stall why) =>
    (match why with
     | .queue => decide (32 ≤ s.w.queued)
     | .scalar r => s.w.outstanding r
     | .token c => !s.myCluster.hasToken s.w.asid c
     | .engine => !engineRoom s 1
     | .walk => awaits 0 s || contHeld s
     | .fetch => awaits 0 s || s.myCluster.fmiss.any (fun x => x.wave == s.w.id && x.lane.isNone)
     | .fence => s.w.fence.isSome)
  | some (.issued i p) =>
    match i with
    | .bwait _ _ => p == 0
    | .vxtake _ => !controlUnblocks s
    | .vxseed _ => !controlUnblocks s
    | .vcatch _ => !catchReady s.w
    | .fence _ _ => p == 1 || !s.w.settled
    | .xfence _ _ _ => p == 1 || !s.w.settled
    | .brany _ _ => !s.w.settled
    | .brall _ _ => !s.w.settled
    | .brnone _ _ => !s.w.settled
    | .crrd _ _ => !s.w.settled
    | .crwr _ _ => !s.w.settled
    | .fflagsAccess _ _ => !s.w.settled
    | .mrel => !matrixIdle s.w
    | .cmdb _ _ => p == 0 || !engineRoom s s.w.cmdb.length
    | .yieldW _ => !yieldReady s
    | .exitW => false
    | _ => true

/-- Whether the control thread's wait is a long dependence by its kind (R206, R336, R351); a scalar only while a load or an atomic is to
deliver it. -/
def longKind (w : Wave) : Bool :=
  match w.wait with
  | none => false
  | some (.stall why) =>
    (match why with
     | .queue => false
     | .scalar r => !w.vq.any (fun e => queueDest e.word == some r)
     | _ => true)
  | some (.issued i p) =>
    match i with
    | .bwait _ _ => true
    | .waitaddr _ _ _ => true
    | .vxtake _ => true
    | .vcatch _ => true
    | .regclaim _ => true
    | .macq => true
    | .fence _ _ => true
    | .xfence _ _ _ => true
    | .cmdb _ _ => p == 1
    | _ => false

/-- Whether a VP-local access of a lane finds the gather engine full or its token bucket empty (R155, R191). -/
def localStarved (s : State) (i : Instr) (v : Nat) : Bool :=
  let f (b : BitVec 5) (x : BitVec 6) (p o : BitVec 2) : Bool :=
    engineFull s || (p != 3 && !inAperture (localAddr s.w b x v).toNat && !s.myCluster.hasToken s.w.asid (vmClass o))
  match i with
  | .vld _ _ b x _ p o => f b x p o
  | .vst _ _ _ b x _ p o => f b x p o
  | .vamo _ _ b x _ p o => f b x p o
  | _ => false

/-- Whether the word that a lane would issue next waits on memory: for a walk or its words (R166, R206), for an element or a scalar on its way
(R473), for the gather engine or a token. -/
def laneStuck (s : State) (j : Nat) : Bool :=
  awaits (2 + j) s || s.myCluster.fmiss.any (fun x => x.wave == s.w.id && x.lane == s.ownLane j) ||
    (match s.w.nextVp j with
     | some (v, .run id pos rep _ _) =>
       (match s.w.run? id with
        | none => false
        | some r =>
          let word := wordAt r.words pos rep
          s.w.landingAt (wordRegs word) [v] || localStarved s (instrOfWord word) v ||
            (srcBytes word).any (fun x => !specIsReg x && decide (8 ≤ bits x 0 6 ∧ bits x 0 6 < 40) && s.w.outstanding (BitVec.ofNat 5 (bits x 0 6 - 8))))
     | _ => false)

/-- Whether a lane of the wave has work that can go on. -/
def lanesGo (s : State) : Bool :=
  !s.w.trp.inh && !s.w.frozen &&
    (!s.w.ending.isEmpty || (List.range s.w.lanes).any (fun j =>
      !laneStuck s j && ((s.w.nextVp j).isSome || (!s.w.laneBusy j && (s.w.laneChoice j).isSome))))

/-- Whether the die delays the oldest entry of the wave's queue (R284). -/
def powerDelays (s : State) : Bool :=
  queueMoves s &&
    (if s.w.fetchesNow.isEmpty then
      (match s.w.vqNow with
       | [] => false
       | e :: _ => matrixDelayed s e.word || (opOf e.word == 0x45 && blockDelayed s))
     else blockDelayed s)

/-- Whether the focused wave waits on a long dependence (R206), other than a stall that has lasted long: no lane of it can go on. -/
def longDep (s : State) : Bool :=
  !lanesGo s && (s.w.wantsMat || s.w.vland.any (fun l => l.linked.isSome) || claimBlocked s || (stillWaits s && longKind s.w))

/-- Whether the focused wave stalls in another way, the delay of its work by the die among them (R206, R284). -/
def otherStall (s : State) : Bool := !lanesGo s && (stillWaits s || powerDelays s)

/-- The waves of the focused wave's cluster, each as it stands focused. -/
def clusterViews (s : State) : List State := (s.residents s.w.die s.w.cl).map (fun w => s.focus w.id)

/-- Whether the focused wave is pending and ready (R206): a stall of more than 128 cycles counts while it lasts. -/
def isReady (s : State) : Bool := !s.w.active && !s.w.saveFault && !longDep s && !(s.w.stallLong && otherStall s)

/-- Whether a wave enters ahead of every other (R207). -/
def Wave.urgent (w : Wave) : Bool := w.bud.preempt || w.bud.preemptSent || w.ctl.incont

/-- Whether a pending wave goes before another one: urgent first, then the higher class, then the lower stamp (R207). -/
def Wave.goesBefore (a b : Wave) : Bool :=
  (a.urgent && !b.urgent) || (a.urgent == b.urgent && (decide (b.hdr.cls < a.hdr.cls) || (a.hdr.cls == b.hdr.cls && decide (a.stamp < b.stamp))))

/-- The ready pending wave that a free slot of a cluster goes to. -/
def bestPending (s : State) : Option Wave :=
  ((clusterViews s).filter isReady).foldl
    (fun (b : Option Wave) v => match b with | none => some v.w | some m => if v.w.goesBefore m then some v.w else some m) none

/-- The active waves of the focused wave's cluster. -/
def activeWaves (s : State) : List Wave := (s.residents s.w.die s.w.cl).filter (fun w => w.active)

/-- The active wave that is displaced: the lowest class, and among those the highest stamp (R207). -/
def displaced (s : State) : Option Wave :=
  (activeWaves s).foldl
    (fun (b : Option Wave) w =>
      match b with
      | none => some w
      | some m => if w.hdr.cls < m.hdr.cls ∨ (w.hdr.cls = m.hdr.cls ∧ m.stamp < w.stamp) then some w else some m) none

/-- A wave moved into or out of the active set. -/
def setActive (s : State) (id : Nat) (b : Bool) : State := s.updWave id (fun w => { w with active := b, stallLong := w.stallLong && !b })

/-- LONG_DEPENDENCE (R206, R207): an active wave that waits, on one of the long dependences or in a stall of more than 128 cycles, leaves the
active set for a ready pending wave. -/
def execLongDependence (s : State) : Out :=
  event "LONG_DEPENDENCE"
    (fun s => onDuty s && s.w.active && (longDep s || otherStall s) && (bestPending s).isSome)
    (fun s =>
      match bestPending s with
      | some p => setActive ((setActive s s.w.id false).updWave s.w.id (fun w => { w with stallLong := !longDep s })) p.id true
      | none => s) s

/-- Whether the focused wave, which is ready and pending, enters the active set: by a free slot, as the urgent wave, or by its
class (R207). -/
def mayEnter (s : State) : Bool :=
  isReady s && (match bestPending s with | some p => p.id == s.w.id | none => false) &&
    (decide ((activeWaves s).length < 8) || s.w.urgent || (match displaced s with | some d => decide (d.hdr.cls < s.w.hdr.cls) | none => false))

/-- The focused wave enters the active set, displacing a wave where all eight slots are taken. -/
def enterActive (s : State) : State :=
  if (activeWaves s).length < 8 then setActive s s.w.id true
  else
    match displaced s with
    | some d => setActive (setActive s d.id false) s.w.id true
    | none => s

/-- ACTIVE_SET_DISPLACE (R207): the focused wave takes a free slot or displaces an active wave. -/
def execActiveSetDisplace (s : State) : Out :=
  event "ACTIVE_SET_DISPLACE" (fun s => onDuty s && mayEnter s) enterActive s

/-- ANTI_STARVATION (R207): a wave ready and not active for 16,384 cycles displaces, whatever its class. -/
def execAntiStarvation (s : State) : Out :=
  event "ANTI_STARVATION" (fun s => onDuty s && isReady s && decide (8 ≤ (activeWaves s).length)) enterActive s

/-- LANE_STARVATION (R208): the focused wave is chosen next on a lane, or with number 16 and above on the control processor. -/
def execLaneStarvation (l : BitVec 5) (s : State) : Out :=
  event "LANE_STARVATION"
    (fun s => onDuty s && s.w.active && (decide (16 ≤ l.toNat) || ((s.w.nextVp l.toNat).isSome && !laneTaken s l.toNat)))
    (fun s => { s with agenda := { wave := s.w.id, act := if 16 ≤ l.toNat then .control else .lane l.toNat } :: s.agenda }) s

/-! ### Quad power (R102) -/

/-- QUAD_POWER_UP_READY (R102): 2 µs after the write, the quad accepts placements. -/
def execQuadPowerUpReady (d : BitVec 4) (c : BitVec 6) (q : BitVec 2) (s : State) : Out :=
  if !s.hasCluster d.toNat c.toNat then .refused (.noSuchUnit "QUAD_POWER_UP_READY")
  else
    event "QUAD_POWER_UP_READY" (fun s => (s.cluster d.toNat c.toNat).qpend.getLsbD q.toNat)
      (fun s =>
        let x := s.cluster d.toNat c.toNat
        s.setCluster d.toNat c.toNat { x with qpend := x.qpend &&& ~~~(BitVec.ofNat 4 (2 ^ q.toNat)) }) s

/-! ### The matrix unit (R211, R213, R222) -/

/-- MACQ_GRANT (R211, R212): the focused wave's request is granted, and a control thread that waits for it goes on. -/
def execMacqGrant (s : State) : Out :=
  event "MACQ_GRANT" (fun s => onDuty s && macqTurn s && (grantMatrix s).isSome)
    (fun s =>
      let s1 := (grantMatrix s).getD s
      if s.w.waitsIn (fun i => match i with | .macq => true | _ => false) then advance s1 else s1) s

/-- MATRIX_COMPLETE (R222). -/
def execMatrixComplete (s : State) : Out := event "MATRIX_COMPLETE" (fun s => onDuty s && !s.w.mat.isEmpty) completeMatrix s

end Sys2Proof.Machine
end

