-- ==== Sys2Proof/Machine/MemEvents.lean ====
section
/-! DEFINITION. What memory does by itself: home banks, replies, walks, fetches, expiry, the ends of waits, bulk copies, markers,
the work distributor and token buckets (R151, R153, R158, R164 to R167, R177 to R187, R191, R214, R215, R336, R337, R361, R396,
R406, R450, R472). -/

namespace Sys2Proof.Machine

/-- Whether the package runs work. -/
def inService (s : State) : Bool := decide (s.pkg.service = .running)

/-- Whether the focused wave's die takes replies: the wave is resident or ended, and the die is not halted (R260). -/
def takesReplies (s : State) : Bool := s.running s.w.die && !s.w.isSaved

/-! ### Loads, stores and atomics -/

/-- The request at a place removed from the wave's list, and what it read returned (R158, R327). -/
def replyTo (s : State) (k : Nat) (r : Req) (v : U64) : State :=
  s.mapW (fun w => { w with
    reqs := w.reqs.eraseIdx k
    replies := if r.dst = .none then w.replies else w.replies ++ [{ dst := r.dst, val := v, size := r.size, tgt := r.tgt }] })

/-- The EVAL of an error that an access finds: its address, in aperture form for the scratchpad (R253, R254). -/
def Req.errorAddr (r : Req) : U64 := match r.tgt with | .sp off => eccAddr true (BitVec.ofNat 64 off) | _ => r.va

/-- A request of the focused wave performed at its home; an acquire drops L1 (R175, R177). An atomic to a location that has come to hold an
uncorrectable error since it was sent is not performed, and the wave takes ECC with SRC = 3 (R253, R254). -/
def performHome (s : State) (k : Nat) (r : Req) : State :=
  if r.op.isBank && s.poisonedAt r.tgt then
    let s1 := s.mapW (fun w => { w with reqs := w.reqs.eraseIdx k })
    if s1.w.isGone then s1 else raise s1 { src := 3, cause := 0x0F, val := r.errorAddr }
  else
    let p := performReq s r
    let s1 := replyTo p.1 k r p.2
    if r.drop then dropL1 s1 else s1

/-- HOME_BANK_ACCESS (R157, R158, R170): the focused wave's request at a place is applied at its home. -/
def execHomeBankAccess (k : BitVec 13) (s : State) : Out :=
  event "HOME_BANK_ACCESS"
    (fun s => inService s && !s.w.isSaved && reqFree s k.toNat &&
      (match s.w.reqs[k.toNat]? with | some r => !requestHeld s s.w.die r.tgt | none => false))
    (fun s =>
      match s.w.reqs[k.toNat]? with
      | some r => performHome s k.toNat r
      | none => s) s

/-- Whether a request is an atomic to a network window. -/
def Req.isRemote (r : Req) : Bool :=
  r.op.isBank && (match r.tgt with | .win _ _ => true | _ => false)

/-- ATOMIC_TIMEOUT (R167): an atomic to a network window whose reply is missing returns 0, and the wave takes PAGE; a halted die on its
route holds the timeout (R189, R260). -/
def execAtomicTimeout (k : BitVec 13) (s : State) : Out :=
  event "ATOMIC_TIMEOUT"
    (fun s => takesReplies s && (match s.w.reqs[k.toNat]? with | some r => r.isRemote && !atomicHalted s s.w.die r.tgt | none => false))
    (fun s =>
      match s.w.reqs[k.toNat]? with
      | some r =>
        let s1 := replyTo s k.toNat r 0
        if s1.w.isGone then s1 else raise s1 { src := 3, cause := 0x05, val := r.va }
      | none => s) s

/-- AMO_REPLY (R327, R396): the reply at a place lands. -/
def execAmoReply (k : BitVec 13) (s : State) : Out :=
  event "AMO_REPLY"
    (fun s => takesReplies s && (match s.w.replies[k.toNat]? with | some r => !replyHeld s s.w.die r.tgt && !atomicHalted s s.w.die r.tgt | none => false))
    (fun s =>
      match s.w.replies[k.toNat]? with
      | some r => deliver (s.mapW (fun w => { w with replies := w.replies.eraseIdx k.toNat })) r.dst r.val
      | none => s) s

/-- Whether a load of the focused wave may be performed: neither its order nor a failed link holds it back. -/
def loadDue (s : State) (l : Load) : Bool := loadFree s l && !requestHeld s s.w.die l.tgt && !replyHeld s s.w.die l.tgt

/-- The oldest scalar load performed: its value lands (R361), or its sector is poisoned (R254); no load sent early on its path holds an
older value any more (R171). -/
def landScalar (s : State) : State :=
  match s.w.loads with
  | [] => s
  | l :: t =>
    let s1 := s.mapW (fun w => { w with loads := t })
    if s.poisonedAt l.tgt then raise s1 { src := 3, cause := 0x0F, val := l.va }
    else deliver (dropVecEarly (l1Fill s1 l.pol l.tgt)) l.dst (extend l.size l.sgn (loadValue s l.path l.sseq l.tgt l.size))

/-- LOAD_REPLY (R361). -/
def execLoadReply (s : State) : Out :=
  event "LOAD_REPLY" (fun s => takesReplies s && (match s.w.loads with | l :: _ => loadDue s l | [] => false)) landScalar s

/-- VECTOR_LOAD_REPLY (R406). -/
def execVectorLoadReply (k : BitVec 13) (s : State) : Out :=
  event "VECTOR_LOAD_REPLY"
    (fun s => takesReplies s && (match s.w.vland[k.toNat]? with | some l => loadDue s l | none => false))
    (landVector k.toNat) s

/-- LINKED_LOAD_ADMIT (R187). -/
def execLinkedLoadAdmit (k : BitVec 13) (s : State) : Out :=
  event "LINKED_LOAD_ADMIT" (fun s => onDuty s && canAdmit k.toNat s) (fun s => settleWalks 1 (admitLinked k.toNat s)) s

/-! ### Walks, fetches, L1 -/

/-- A translation kept in a cluster's TLB (R164): it replaces the entries for the same address, and the oldest of 4,096. -/
def tlbFill (c : Cluster) (asid : BitVec 16) (va leaf pbits : Nat) : Cluster :=
  let rest := c.tlb.filter (fun e => !((e.asid == asid || bits e.leaf.toNat 6 1 == 1) && e.vpage == va / 2 ^ e.bits))
  { c with tlb := (if 4096 ≤ rest.length then rest.drop 1 else rest) ++ [⟨asid, va / 2 ^ pbits, pbits, BitVec.ofNat 64 leaf⟩] }

/-- A table entry kept by the walkers, in place of the one they keep for its prefix. -/
def keepTable (asid : BitVec 16) (va : Nat) (l : List WalkEntry) (level entry : Nat) : List WalkEntry :=
  l.filter (fun x => !(x.asid == asid && x.level == level && x.vpre == walkPrefix level va)) ++
    [⟨asid, level, walkPrefix level va, BitVec.ofNat 64 entry⟩]

/-- The table entries of levels 0 to 2 that a walk read, kept by the cluster's walkers (R164). -/
def keepTables (c : Cluster) (asid : BitVec 16) (va : Nat) (l : List (Nat × Nat × Nat)) : Cluster :=
  let t := l.filter (fun e => PageBits.valid e.2.2 && !PageBits.leaf e.2.2 && tableOk e.1 e.2.2)
  { c with walker := t.foldl (fun k e => keepTable asid va k e.1 e.2.2) c.walker }

/-- The walks of a die's clusters that have not ended. -/
def dieWalks (s : State) (die : Nat) : List Miss := (s.clusters.filter (fun e => e.1 / 64 == die)).flatMap (fun e => e.2.openMisses)

/-- The entry of the miss table whose walk may end for an address: the die's walkers serve the 64 oldest (R166), and a failed link may hold the
walk (R262). -/
def walkDue (s : State) (va : Nat) : Option Miss :=
  match s.myCluster.openMisses.find? (fun m => m.covers s.w.asid va) with
  | none => none
  | some m =>
    if decide (((dieWalks s s.w.die).filter (fun x => decide (x.seq < m.seq))).length < 64) && !walkHeld s s.w.asid va then some m else none

/-- How a walk ends: its leaf, or its fault. -/
def walkEnd (s : State) (va : Nat) : WalkEnd :=
  match walk s s.w.asid va with
  | .ok (e, b) => .leaf e b
  | .error c => .fault c

/-- A walk ended (R161, R164, R166): the TLB and the walkers keep what it read, and every access that waits on the entry has its end. One that
faults leaves no leaf in the TLB. -/
def endWalk (s : State) (va : Nat) (m : Miss) : State :=
  let c := keepTables s.myCluster s.w.asid va (walkTrace s s.w.asid va)
  let c1 := match walkEnd s va with
    | .leaf e b => tlbFill c s.w.asid va e b
    | .fault _ => c
  let l := c1.misses.map (fun x => if x = m then { x with done := some (walkEnd s va) } else x)
  s.setMyCluster { c1 with misses := l.filter (fun x => x.done.isNone || !x.waiters.isEmpty) }

/-- PAGE_WALK_COMPLETE (R161, R166): the walk for an address of the focused wave's address space ends. -/
def execPageWalkComplete (va : BitVec 60) (s : State) : Out :=
  event "PAGE_WALK_COMPLETE" (fun s => onDuty s && (walkDue s va.toNat).isSome)
    (fun s =>
      match walkDue s va.toNat with
      | some m => endWalk s va.toNat m
      | none => s) s

/-- The words of a sector in an instruction cache of a capacity in words; the oldest ones go (R15). -/
def fillWords (s : State) (cap : Nat) (c : List (Nat × BitVec 32)) (k : Nat) : List (Nat × BitVec 32) :=
  let l := c.filter (fun e => e.1 / 32 != k) ++
    (List.range 8).map (fun j => (32 * k + 4 * j, BitVec.ofNat 32 (Memory.readN s.mem (32 * k + 4 * j) 4)))
  l.drop (l.length - cap)

/-- A sector of instruction words landed: in a lane's thread-fetch cache of 8 KiB, or the AIB block cache of 64 KiB (R15). A poisoned one
lands nowhere; the fetch finds the error (R254). -/
def landFetch (s : State) (x : FetchMiss) : State :=
  let c := s.myCluster
  let c1 : Cluster := { c with fmiss := c.fmiss.filter (fun y => !(y.lane == x.lane && y.sector == x.sector)) }
  if s.poisoned (32 * x.sector) then s.setMyCluster c1
  else
    match x.lane with
    | none => s.setMyCluster { c1 with icache := fillWords s 16384 c1.icache x.sector }
    | some j => s.setMyCluster { c1 with tcache := lkSet c1.tcache j (fillWords s 2048 (s.cacheOf (some j)) x.sector) }

/-- The sector at a physical address that the focused wave waits for. -/
def fetchDue (s : State) (pa : Nat) : Option FetchMiss :=
  if tripHeld s s.w.die (.pkg pa) then none
  else s.myCluster.fmiss.find? (fun x => x.wave == s.w.id && x.sector == pa / 32)

/-- INSTRUCTION_FETCH_REPLY (R153, R206): the sector of instruction words at a physical address arrives. -/
def execInstructionFetchReply (pa : BitVec 60) (s : State) : Out :=
  event "INSTRUCTION_FETCH_REPLY" (fun s => onDuty s && (fetchDue s pa.toNat).isSome)
    (fun s =>
      match fetchDue s pa.toNat with
      | some x => landFetch s x
      | none => s) s

/-- L1_SECTOR_EXPIRY (R177): a sector of L1 is dropped. -/
def execL1SectorExpiry (d : BitVec 4) (c : BitVec 6) (k : BitVec 15) (s : State) : Out :=
  if !s.hasCluster d.toNat c.toNat then .refused (.noSuchUnit "L1_SECTOR_EXPIRY")
  else
    event "L1_SECTOR_EXPIRY" (fun s => decide (k.toNat < (s.cluster d.toNat c.toNat).l1.length))
      (fun s =>
        let x := s.cluster d.toNat c.toNat
        s.setCluster d.toNat c.toNat { x with l1 := x.l1.eraseIdx k.toNat }) s

/-! ### The ends of waits -/

/-- What a TLBINV drops; none for another instruction. -/
def invalOf (s : State) : Instr → Option Inval
  | .tlbinvPage a b => some (invalPage a b s)
  | .tlbinvAsid b => some (invalAsid b s)
  | .tlbinvAll => some invalAll
  | _ => none

/-- The instruction that the focused wave waits in, with its phase. -/
def Wave.waitInstr (w : Wave) : Option (Instr × Nat) :=
  match w.wait with
  | some (.issued i p) => some (i, p)
  | _ => none

/-- What a TLBINV that may complete now drops (R165). -/
def invalDue (s : State) : Option Inval :=
  match s.w.waitInstr with
  | some (i, since) => if tlbinvReady since s then invalOf s i else none
  | none => none

/-- TLBINV_COMPLETE (R165). -/
def execTlbinvComplete (s : State) : Out :=
  event "TLBINV_COMPLETE" (fun s => onDuty s && (invalDue s).isSome)
    (fun s =>
      match invalDue s with
      | some p => tlbinvEffect p s
      | none => s) s

/-- The effect of a fence whose ordering wait is over; none while it is not, or for another instruction (R178 to R180). -/
def fenceOf (s : State) : Instr → Option State
  | .fence sc k => if fenceDone s k then some (fenceEffect sc k s) else none
  | .xfence sc f t => if xfenceDone f s then some (xfenceEffect sc t s) else none
  | _ => none

/-- A fence completed: the one in which the control thread waits, or one that the control thread has left in its ordering wait (R178). -/
def fenceOver (s : State) : Option State :=
  match s.w.fence with
  | some i => (fenceOf s i).map (fun t => t.mapW (fun w => { w with fence := none }))
  | none =>
    match s.w.waitInstr with
    | some (i, 1) => (fenceOf s i).map advance
    | _ => none

/-- FENCE_COMPLETE (R179, R180). -/
def execFenceComplete (s : State) : Out :=
  event "FENCE_COMPLETE" (fun s => onDuty s && (fenceOver s).isSome) (fun s => (fenceOver s).getD s) s

/-- Whether a BWAIT that waits has seen its phase change (R183, R347). -/
def bwaitOver (s : State) : Bool :=
  match s.w.waitInstr with
  | some (.bwait a p, ph) =>
    ph == 1 || (match barrierOff s (s.w.gs a) with | .ok off => phaseDone s off p && !s.myTeam.bad.contains (off / 8) | .error _ => false)
  | _ => false

/-- BWAIT_COMPLETE (R183). -/
def execBwaitComplete (s : State) : Out :=
  event "BWAIT_COMPLETE" (fun s => onDuty s && bwaitOver s) bwaitEffect s

/-- What a further read by a WAITADDR that waits gives; none for another instruction. -/
def waitaddrAgain (s : State) : Option State :=
  match s.w.waitInstr with
  | some (.waitaddr d a b, _) => some (waitaddrRead d a b s)
  | _ => none

/-- WAITADDR_POLL (R450): the location is read again, whatever it holds. -/
def execWaitaddrPoll (s : State) : Out :=
  event "WAITADDR_POLL" (fun s => onDuty s && (waitaddrAgain s).isSome) (fun s => settleWalks 0 ((waitaddrAgain s).getD s)) s

/-- Whether a read by a WAITADDR completes it: the control thread goes on, with no trap. -/
def completes (s t : State) : Bool := t.w.wait.isNone && t.w.doubleCause.isNone && t.w.trp.inh == s.w.trp.inh && t.w.isResident

/-- WAITADDR_COMPLETE (R450): the read that finds the location changed. -/
def execWaitaddrComplete (s : State) : Out :=
  event "WAITADDR_COMPLETE"
    (fun s => onDuty s && (match waitaddrAgain s with | some t => completes s t | none => false))
    (fun s => settleWalks 0 ((waitaddrAgain s).getD s)) s

/-! ### Bulk copies (R336, R337, R245, R254) -/

/-- The machine as a command sees it: focused on a wave of the command's team, address space and privilege in its cluster. -/
def copyView (s : State) (die cl : Nat) (b : Bulk) : State :=
  s.setW { id := b.wave, place := .resident die cl, team := b.team, asid := b.asid, sup := b.sup }

/-- One byte of a side of a copy: its target, or none in a scratchpad that EXIT has discarded (R337); in a scratchpad's image the access needs
the right of its side only (R163). -/
def copyByte (v : State) (acc : Acc) (va : U64) : Except (BitVec 8) (Option Target) :=
  if inAperture va.toNat && v.myTeam.left == 0 then .ok none
  else
    match resolve v acc false va 1 with
    | .error c => .error c
    | .ok (.sp off) =>
      (match spFault v v.w.team acc off 1 with
       | some (c, _) => if c = 0x0F then .ok (some (.sp off)) else .error c
       | none => .ok (some (.sp off)))
    | .ok g => .ok (some g)

/-- A right of a network window (R167, R279): a copy reads with R and writes with W. -/
def copyRead : Acc := { r := true, net := some 1 }
/-- The destination's. -/
def copyWrite : Acc := { w := true, net := some 2 }

/-- What a copy finds byte by byte up to its first fault: source and destination targets, and the fault with its address; at one
offset the source's comes first. -/
structure CopyScan where
  bytes : List (Option Target × Option Target) := []
  fault : Option (BitVec 8 × U64) := none

/-- The bytes of a copy looked at in ascending order. -/
def copyScan (v : State) (dst src : U64) : Nat → CopyScan
  | 0 => {}
  | n + 1 =>
    match copyByte v copyRead src with
    | .error c => { fault := some (c, src) }
    | .ok x =>
      match copyByte v copyWrite dst with
      | .error c => { fault := some (c, dst) }
      | .ok y =>
        let r := copyScan v (dst + 1) (src + 1) n
        { r with bytes := (x, y) :: r.bytes }

/-- Whether a source byte is poisoned, in an image outside the cluster too. -/
def srcPoisoned (v : State) : Option Target → Bool
  | some (.sp off) => v.poisonedAt (.sp off) || ((spFault v v.w.team copyRead off 1).map (fun x => x.1 == 0x0F)).getD false
  | some g => v.poisonedAt g
  | none => false

/-- The bytes of a copy written, with the values the source had before any of them (R336). -/
def copyWriteAll (s : State) (team : Nat) : List (Target × Nat) → State
  | [] => s
  | (g, x) :: t => copyWriteAll (targetWrite s team g 1 x) team t

/-- A sector or scratchpad doubleword of a destination marked as poisoned, or cleared where the copy covers all of it (R254). -/
def copyPoison (s : State) (team : Nat) (written : List Target) (bad : List Target) : State :=
  let pas := written.filterMap (fun g => match g with | .pkg pa => some pa | _ => none)
  let offs := written.filterMap (fun g => match g with | .sp off => some off | _ => none)
  let badPas := bad.filterMap (fun g => match g with | .pkg pa => some (pa / 32) | _ => none)
  let badOffs := bad.filterMap (fun g => match g with | .sp off => some (off / 8) | _ => none)
  let full (l : List Nat) (n k : Nat) : Bool := (List.range n).all (fun j => l.contains (n * k + j))
  let s1 := { s with poison := s.poison.filter (fun k => !full pas 32 k) ++ badPas.eraseDups.filter (fun k => full pas 32 k || !s.poison.contains k) }
  if offs.isEmpty then s1
  else
    let t := s1.team team
    s1.setTeam team { t with bad := t.bad.filter (fun k => !full offs 8 k) ++
                                    badOffs.eraseDups.filter (fun k => full offs 8 k || !t.bad.contains k) }

/-- The value of a source byte: through the cluster's L1 while it holds the sector (R152). -/
def srcValue (v : State) (team : Nat) : Option Target → Nat
  | some (.pkg pa) => l1Byte v pa
  | some g => targetRead v team g 1
  | none => targetRead v team (.sp 0) 1

/-- A command of the bulk engine carried out whole: up to its first fault (R245, R336), with an ECC trap where it reads a poisoned sector
(R254). -/
def runCopy (s : State) (die cl : Nat) (b : Bulk) : State :=
  let v := copyView s die cl b
  let r := copyScan v b.dst b.src b.count
  let pairs := r.bytes.filterMap (fun e => e.2.map (fun g => (g, srcValue v b.team e.1)))
  let bad := r.bytes.filterMap (fun e => if srcPoisoned v e.1 then e.2 else none)
  let s0 := (r.bytes.foldl (fun x e => match e.1 with | some g => l1Fill x b.pol g | none => x) v).setW s.w
  let s1 := copyPoison (copyWriteAll s0 b.team pairs) b.team (pairs.map Prod.fst) bad
  let s2 := pairs.foldl (fun x e => match e.1 with | .pkg pa => l1Update x die cl pa 1 | _ => x) s1
  let s3 := match (r.bytes.zip (List.range b.count)).find? (fun e => srcPoisoned v e.1.1) with
    | some e => raiseOn s2 b.wave 0x0F (b.src + BitVec.ofNat 64 e.2)
    | none => s2
  match r.fault with
  | some (c, va) => raiseOn s3 b.wave c va
  | none =>
    match b.bar with
    | none => s3
    | some off => credit s3 b.wave b.team off.toNat b.count

/-- Whether a failed link holds a command back. -/
def copyHeld (s : State) (die cl : Nat) (b : Bulk) : Bool :=
  !s.pkg.failedLinks.isEmpty &&
    (copyScan (copyView s die cl b) b.dst b.src b.count).bytes.any (fun e =>
      (match e.1 with | some g => requestHeld s die g || replyHeld s die g | none => false) ||
      (match e.2 with | some g => requestHeld s die g | none => false))

/-- The sectors of `n` that a bucket lets the engine send now (R191). -/
def Cluster.lets (c : Cluster) (asid : BitVec 16) (n : Nat) : Nat :=
  if (c.rate.entry asid).at 0 = 0xFFFF then n
  else if (c.rate.entry asid).at 0 = 0 then 0
  else min n (spGet (0 : Int) c.tokens (tokKey asid 0)).toNat

/-- The engine goes on with a command: it takes a token for each sector that it sends, and pauses on an empty bucket (R191, R336); with the last
sector the copy is done. -/
def copyGo (s : State) (die cl k : Nat) (b : Bulk) : State :=
  let x := s.cluster die cl
  let n := x.lets b.asid (copySectors b.dst b.src b.count - b.sent)
  let y := x.takeTokens b.asid 0 n
  if b.sent + n < copySectors b.dst b.src b.count then s.setCluster die cl { y with bulk := y.bulk.set k { b with sent := b.sent + n } }
  else runCopy (s.setCluster die cl { y with bulk := y.bulk.eraseIdx k }) die cl b

/-- BCOPY_COMPLETE (R336, R337): a command of a cluster's engine, in any order, with its BULK tokens (R191). -/
def execBcopyComplete (d : BitVec 4) (c k : BitVec 6) (s : State) : Out :=
  if !s.hasCluster d.toNat c.toNat then .refused (.noSuchUnit "BCOPY_COMPLETE")
  else
    event "BCOPY_COMPLETE"
      (fun s =>
        match (s.cluster d.toNat c.toNat).bulk[k.toNat]? with
        | none => false
        | some b => s.running d.toNat && !copyHeld s d.toNat c.toNat b &&
            (decide (copySectors b.dst b.src b.count ≤ b.sent) ||
              decide (0 < (s.cluster d.toNat c.toNat).lets b.asid (copySectors b.dst b.src b.count - b.sent))))
      (fun s =>
        match (s.cluster d.toNat c.toNat).bulk[k.toNat]? with
        | none => s
        | some b => copyGo s d.toNat c.toNat k.toNat b) s

/-! ### Markers, the work distributor, tokens -/

/-- MARKER_FIRE (R184). -/
def execMarkerFire (s : State) : Out := event "MARKER_FIRE" (fun s => s.running s.w.die && markerReady s) fireMarker s

/-- One request applied at the descriptor's home (R214): the answer, and the machine with NEXT stepped on. -/
def applyWdq (s : State) (desc : Nat) : State × U64 :=
  let next := Memory.readN s.mem desc 8
  let limit := Memory.readN s.mem (desc + 8) 8
  if next < limit then ({ s with mem := Memory.writeN s.mem desc 8 (next + 1) }, BitVec.ofNat 64 next)
  else (s, 0xFFFFFFFFFFFFFFFF)

/-- A request applied, unless its descriptor's sector has come to be poisoned since it was sent: then the wave takes ECC with SRC = 3 and no
answer comes (R254). -/
def answerWdq (s : State) (k : Nat) (q : Wdq) : State :=
  if s.poisoned q.desc then raiseOn { s with wdq := s.wdq.eraseIdx k } q.wave 0x0F q.va
  else
    let r := applyWdq s q.desc
    { r.1 with wdq := r.1.wdq.set k { q with answer := some r.2 } }

/-- WORK_DISTRIBUTOR_REQUEST (R214): the request at a place is answered. -/
def execWorkDistributorRequest (k : BitVec 12) (s : State) : Out :=
  event "WORK_DISTRIBUTOR_REQUEST"
    (fun s =>
      match s.wdq[k.toNat]? with
      | some q => inService s && q.answer.isNone && !requestHeld s (s.team q.team).die (.pkg q.desc)
      | none => false)
    (fun s =>
      match s.wdq[k.toNat]? with
      | some q => answerWdq s k.toNat q
      | none => s) s

/-- An answer written to the answer word, with 8 credited to the barrier (R215); an image that cannot be written raises a trap with SRC = 3
(R163). -/
def landWdq (s : State) (q : Wdq) : State :=
  match spFault s q.team Acc.store q.ans 8 with
  | some (c, va) => raiseOn s q.wave c va
  | none => credit (spWrite s q.team q.ans 8 (q.answer.getD 0).toNat) q.wave q.team q.bar 8

/-- WDQ_ANSWER (R215). -/
def execWdqAnswer (k : BitVec 12) (s : State) : Out :=
  event "WDQ_ANSWER"
    (fun s =>
      match s.wdq[k.toNat]? with
      | some q => s.running (s.team q.team).die && q.answer.isSome && !replyHeld s (s.team q.team).die (.pkg q.desc)
      | none => false)
    (fun s =>
      match s.wdq[k.toNat]? with
      | some q => landWdq { s with wdq := s.wdq.eraseIdx k.toNat } q
      | none => s) s

/-- A bucket after it is filled (R191): at most its depth. -/
def filledTo (depth : BitVec 16) (x : Int) : Int := if depth = 0xFFFF then x else min x depth.toNat

/-- TOKEN_BUCKET_FILL (R191): a limited bucket of a tenant and class gains tokens up to its depth. -/
def execTokenBucketFill (d : BitVec 4) (c : BitVec 6) (asid : BitVec 16) (cls : BitVec 2) (s : State) : Out :=
  if !s.hasCluster d.toNat c.toNat then .refused (.noSuchUnit "TOKEN_BUCKET_FILL")
  else
    event "TOKEN_BUCKET_FILL"
      (fun s =>
        let r := ((s.cluster d.toNat c.toNat).rate.entry asid).at cls.toNat
        decide (cls.toNat < 3) && r != 0 && r != 0xFFFF)
      (fun s =>
        let x := s.cluster d.toNat c.toNat
        let key := tokKey asid cls.toNat
        let n := Config.tokenFill s.free ((x.rate.entry asid).at cls.toNat).toNat
        let y : Int := filledTo ((x.depth.entry asid).at cls.toNat) (spGet (0 : Int) x.tokens key + n)
        s.setCluster d.toNat c.toNat { x with tokens := spSet (0 : Int) x.tokens key y }) s

end Sys2Proof.Machine
end

