-- ==== Sys2Proof/Machine/Boot.lean ====
section
/-! DEFINITION. The wear record and spares, flood exploration, the almanac, and boot (R18, R19, R261 to R274, R276). -/

namespace Sys2Proof.Machine

/-! ### The wear record and spares (R14, R17 to R19, R253, R255, R271, R272) -/

/-- Whether a unit fails self-test at this boot. -/
def failsTest (s : State) (k : Nat) : Bool := Config.selfTestFails s.pkg.resets.toNat k

/-- Whether a unit with a key is retired for good (R272). -/
def State.retired (s : State) (k : Nat) : Bool := s.pkg.wear.retired.contains k

/-- Whether a physical lane is to be retired (R271). -/
def laneBad (s : State) (die site lane : Nat) : Bool :=
  decide (2 ≤ wearAt s (wearLane die site lane)) || decide (1 ≤ wearAt s (wearReg die site lane)) || failsTest s (wearLane die site lane)

/-- Whether an L2 bank site is to be retired (R271). -/
def bankBad (s : State) (mem bank : Nat) : Bool :=
  decide (1 ≤ wearAt s (wearBankBad mem bank)) || decide (1024 < wearAt s (wearBank mem bank)) || failsTest s (wearBank mem bank)

/-- The rows of an HBM4 stack that are to be repaired (R271): one with an uncorrectable error, or with more than 16 corrected ones;
only rows with a counter can be. -/
def badRowKeys (s : State) : List Nat :=
  (s.pkg.wear.counts.filter (fun e => decide (2 ^ 52 ≤ e.1) || (decide (2 ^ 48 ≤ e.1) && decide (16 < e.2)))).map
    (fun e => if 2 ^ 52 ≤ e.1 then e.1 - 2 ^ 52 + 2 ^ 48 else e.1)

/-- The keys of the units that self-test looks at: the lanes and the arrays, control processors and schedulers of every cluster site,
and every L2 bank site. -/
def testedKeys (s : State) : List Nat :=
  (List.range s.ndie).flatMap (fun d =>
    (List.range 68).flatMap (fun k => wearUnit d k 0 :: (List.range 17).map (wearLane d k)) ++ (List.range 392).map (wearBank d))

/-- The keys of the units whose retirement condition holds (R271). -/
def retireKeys (s : State) : List Nat :=
  (List.range s.ndie).flatMap (fun d =>
    (List.range 68).flatMap (fun k =>
      (if failsTest s (wearUnit d k 0) then [wearUnit d k 0] else []) ++ ((List.range 17).filter (laneBad s d k)).map (wearLane d k)) ++
    ((List.range 392).filter (bankBad s d)).map (wearBank d)) ++ badRowKeys s

/-- Keys joined to a list that they may stand in already. -/
def joinKeys (l : List Nat) (new : List Nat) : List Nat := l ++ (new.eraseDups.filter (fun k => !l.contains k))

/-- Step 5's results in the wear record (R271, R272): the units that failed self-test, and the units retired, which stay so. -/
def selfTest (s : State) : State :=
  let r := s.pkg.wear
  { s with pkg := { s.pkg with wear := { r with tests := joinKeys r.tests ((testedKeys s).filter (failsTest s))
                                                retired := joinKeys r.retired (retireKeys s) } } }

/-- Whether a cluster site is retired: two failing lanes, or a failure of its array, control processor or scheduler (R19, R271). -/
def siteRetired (s : State) (die site : Nat) : Bool :=
  decide (2 ≤ ((List.range 17).filter (fun k => s.retired (wearLane die site k))).length) || s.retired (wearUnit die site 0)

/-- ENCL of a die: its good sites of 68, at most 64 (R14, R19). -/
def enclOf (s : State) (die : Nat) : Nat := min 64 ((List.range 68).filter (fun k => !siteRetired s die k)).length

/-- The good sites that no position of their own number uses, in the order in which boot takes them: spare sites 64 to 67, then the
sites of vacant positions. DESIGN CHOICE (log entry 3): R14 names no map from sites to positions. -/
def sitePool (s : State) (die : Nat) : List Nat :=
  (([64, 65, 66, 67] : List Nat) ++ ((List.range 64).filter (fun k => decide (enclOf s die ≤ k)))).filter (fun k => !siteRetired s die k)

/-- The positions whose own site is retired, each with the site of the pool that serves it (R14, R18): every other position is served by
the site of its number (DESIGN CHOICE, log entry 3). -/
def sitesOf (s : State) (die : Nat) : List (Nat × Nat) :=
  ((List.range (enclOf s die)).filter (fun k => siteRetired s die k)).zip (sitePool s die)

/-- The lane that the spare lane of a site serves: its one retired lane, unless that is the spare lane (R19, R271). -/
def spareLaneOf (s : State) (die site : Nat) : Option Nat := (List.range 16).find? (fun k => s.retired (wearLane die site k))

/-- The retired L2 bank sites of a memory die, of 392 (R17). -/
def banksRetired (s : State) (mem : Nat) : Nat := ((List.range 392).filter (fun k => s.retired (wearBank mem k))).length

/-- The L2 banks of a memory die whose own site is retired, each with the good spare bank site that serves it (R17, R271; DESIGN CHOICE,
log entry 3, in the order). -/
def bankSitesOf (s : State) (mem : Nat) : List (Nat × Nat) :=
  (((List.range 384).filter (fun k => s.retired (wearBank mem k))).map (mem * 512 + ·)).zip
    (((List.range 8).map (384 + ·)).filter (fun k => !s.retired (wearBank mem k)))

/-- The rows of a memory die's stack that are retired. -/
def rowsRetired (s : State) (mem : Nat) : Nat :=
  (s.pkg.wear.retired.filter (fun k => decide (wearRow mem 0 ≤ k ∧ k < wearRow (mem + 1) 0))).length

/-- Why the package is held out of service after self-test (R19), if it is. DESIGN CHOICE (log entry 3): R270 has the reason reported and
gives no text, nor an order where several hold. -/
def spareTrouble (s : State) : Option String :=
  if (List.range s.ndie).any (fun d => decide (enclOf s d < 32)) then some "ENCL"
  else if (List.range s.ndie).any (fun d => decide (8 < banksRetired s d)) then some "L2"
  else if (List.range s.ndie).any (fun d => decide (Config.stackRepairs d < rowsRetired s d)) then some "HBM4"
  else none

/-- The lanes of a link's modules that fail training at this boot (R261, R271). -/
def ucieKeys (s : State) : List Nat :=
  (List.range s.links).flatMap (fun l => (List.range 16).flatMap (fun m => (List.range 128).map (wearUcie l m)))

/-- Whether a link falls short of training (R261): a module of it has more lanes retired than its redundant lanes can replace. -/
def linkShort (s : State) (l : Nat) : Bool :=
  (List.range 16).any (fun m => decide (Config.redundantLanes < ((List.range 128).filter (fun k => s.retired (wearUcie l m k))).length))

/-- Step 3 of boot (R261, R269, R271): every link is trained, with lane repair. A lane that fails is retired; a link that falls short is
left out, and so is one that was marked failed before this reset (R262). DESIGN CHOICE (log entry 3): at a later reset that link is
trained like any other. -/
def trainLinks (s : State) (failed : List Nat) : State :=
  let r := s.pkg.wear
  let bad := (ucieKeys s).filter (Config.laneFails s.pkg.resets.toNat)
  let s1 := { s with pkg := { s.pkg with wear := { r with tests := joinKeys r.tests bad, retired := joinKeys r.retired bad } } }
  { s1 with pkg := { s1.pkg with downLinks := (List.range s.links).filter (fun l => failed.contains l || linkShort s1 l) } }

/-! ### Exploration (R263) -/

/-- The trained links of a die, each with the die at its other end; ring positions are numbered 0 to N − 1, IO dies N and
N + 1. -/
def portsOf (s : State) (node : Nat) : List (Nat × Nat) :=
  let n := s.nring
  let l := n + n / 2
  let io : List (Nat × Nat) := [(l, 0), (l + 1, 1), (l + 2, n / 2), (l + 3, n / 2 + 1)]
  let all : List (Nat × Nat) :=
    if n ≤ node then ((io.drop (2 * (node - n))).take 2)
    else s.linksAt node ++ ((io.zip [n, n, n + 1, n + 1]).filter (fun e => e.1.2 == node)).map (fun e => (e.1.1, e.2))
  all.filter (fun e => s.trained e.1)

/-- The kind of a die: 0 compute, 1 memory, 2 IO. -/
def kindOf (s : State) (node : Nat) : Nat := if s.nring ≤ node then 2 else node % 2

/-- The name a die drew. -/
def nameOf (s : State) (node : Nat) : U64 := Config.dieName s.pkg.explore.draw node

/-- A die's report. -/
def reportOf (s : State) (node : Nat) : Report :=
  { node := node, kind := kindOf s node, name := nameOf s node, near := (portsOf s node).map (fun e => (e.1, nameOf s e.2)) }

/-- Exploration started with a draw of names: IO die 0 sends a flit on each of its trained links. -/
def startExplore (s : State) (draw : Nat) : State :=
  { s with pkg := { s.pkg with explore :=
      { on := true, draw := draw, visited := [s.nring]
        flits := (portsOf s s.nring).map (fun e => { dest := e.2, path := [e.1] }) } } }

/-- A flit received (R263): a die's first one is answered by a report and forwarded on its other trained links. -/
def takeFlit (s : State) (k : Nat) : State :=
  let x := s.pkg.explore
  match x.flits[k]? with
  | none => s
  | some f =>
    let rest := x.flits.eraseIdx k
    let y : Explore :=
      if x.visited.contains f.dest then { x with flits := rest }
      else
        { x with
          flits := rest ++ ((portsOf s f.dest).filter (fun e => some e.1 != f.path.getLast?)).map (fun e =>
            { dest := e.2, path := f.path ++ [e.1] })
          sent := x.sent ++ [reportOf s f.dest]
          visited := x.visited ++ [f.dest] }
    { s with pkg := { s.pkg with explore := y } }

/-- EXPLORATION_FLIT. -/
def execExplorationFlit (k : BitVec 8) (s : State) : Out :=
  event "EXPLORATION_FLIT" (fun s => s.pkg.explore.on && decide (k.toNat < s.pkg.explore.flits.length)) (fun s => takeFlit s k.toNat) s

/-- EXPLORATION_REPORT: IO die 0 receives a report. -/
def execExplorationReport (k : BitVec 8) (s : State) : Out :=
  event "EXPLORATION_REPORT" (fun s => s.pkg.explore.on && decide (k.toNat < s.pkg.explore.sent.length))
    (fun s =>
      let x := s.pkg.explore
      { s with pkg := { s.pkg with explore := { x with sent := x.sent.eraseIdx k.toNat, got := x.got ++ (x.sent[k.toNat]?).toList } } }) s

/-! ### Ring positions (R264) -/

/-- The report that carries a name. -/
def byName (l : List Report) (name : U64) : Option Report := l.find? (fun r => r.name == name)

/-- The names that a report gives for links of a kind: 0 ring links, 1 chords. -/
def nearKind (l : List Report) (r : Report) (chord : Bool) : List U64 :=
  (r.near.map Prod.snd).filter (fun x =>
    match byName l x with
    | some y => decide (y.kind < 2) && decide (r.kind < 2) && (chord == decide (y.kind = r.kind))
    | none => false)

/-- One position read off its neighbours (R264): the ring neighbour of position a other than position b. -/
def ringNext (l : List Report) (pos : List (Option U64)) (a b : Nat) : Option U64 :=
  match (pos.getD a none).bind (byName l), pos.getD b none with
  | some r, some other =>
    (match (nearKind l r false).filter (· != other) with
     | [x] => some x
     | _ => none)
  | _, _ => none

/-- One position read off its chord. -/
def chordNext (l : List Report) (pos : List (Option U64)) (a : Nat) : Option U64 :=
  ((pos.getD a none).bind (byName l)).bind (fun r => (nearKind l r true).head?)

/-- One round: every position still empty is read off the two positions before it, or off its chord partner (R264). -/
def assignRound (n : Nat) (l : List Report) (pos : List (Option U64)) : List (Option U64) :=
  (List.range n).map (fun p =>
    match pos.getD p none with
    | some x => some x
    | none =>
      match ringNext l pos ((p + n - 1) % n) ((p + n - 2) % n) with
      | some x => some x
      | none => chordNext l pos ((p + n / 2) % n))

/-- The names in ring order: positions 0 and 1 are the compute and the memory die on IO die 0's links. -/
def assignRing (s : State) (l : List Report) : List (Option U64) :=
  let n := s.nring
  let io := (portsOf s n).filterMap (fun e => byName l (nameOf s e.2))
  let first (k : Nat) : Option U64 := (io.find? (fun r => r.kind == k)).map (fun r => r.name)
  (List.range n).foldl (fun pos _ => assignRound n l pos) (first 0 :: first 1 :: List.replicate (n - 2) none)

/-- Whether the package is held out of service with BADTOPO (R264). -/
def badTopo (s : State) : Bool :=
  let l := s.pkg.explore.got
  let n := s.nring
  let pos := assignRing s l
  let count (k : Nat) : Nat := (l.filter (fun r => r.kind == k)).length
  let io1 := (l.find? (fun r => r.kind == 2)).map (fun r => r.near.map Prod.snd)
  decide (l.length ≠ n + 1) || count 0 != count 1 || pos.any Option.isNone || decide (pos.eraseDups.length ≠ n) ||
    (match io1 with
     | none => true
     | some near => !(near.contains ((pos.getD (n / 2) none).getD 0) && near.contains ((pos.getD (n / 2 + 1) none).getD 0)))

/-! ### The almanac (R266) -/

/-- A sum of bits of a list. -/
def bitSum (l : List Bool) : Nat := l.foldr (fun b x => b2n b + 2 * x) 0

/-- The almanac as entries (offset, size, value). -/
def almanac (s : State) : List (Nat × Nat × Nat) :=
  let n := s.nring
  let link (k : Nat) : Bool := s.trained k
  [(0x000, 8, 2 ^ 48 + n * 2 ^ 40 + s.ndie * 2 ^ 32 + s.pkg.resets.toNat),
   (0x008, 8, bitSum ((List.range (n + n / 2)).map link)),
   (0x010, 8, bitSum ((List.range 4).map (fun k => link (n + n / 2 + k))))] ++
  (List.range s.ndie).map (fun d => (0x020 + d, 1, enclOf s d)) ++
  (List.range s.ndie).map (fun d => (0x030 + d, 1, banksRetired s d)) ++
  (List.range n).flatMap (fun b => (distances s b).zip (List.range n) |>.map (fun e => (0x100 + 32 * e.2 + b, 1, e.1))) ++
  (List.range 8).map (fun k => (0x800 + 8 * k, 8, (Config.macAddress k).toNat))

/-- Entries written from a physical address. -/
def putAt (m : List Host.Cell) (base : Nat) : List (Nat × Nat × Nat) → List Host.Cell
  | [] => m
  | (off, n, v) :: t => putAt (Memory.writeN m (base + off) n v) base t

/-- The almanac's physical address. -/
def almanacBase : Nat := 0xC0000

/-- The almanac written: 4 KiB, what it does not list as 0. -/
def writeAlmanac (s : State) : State := { s with mem := putAt (Memory.clear s.mem almanacBase 4096) almanacBase (almanac s) }

/-- A line for the host from the management controller. -/
def report (s : State) (m : String) : State := { s with pkg := { s.pkg with mgmt := s.pkg.mgmt ++ [m] } }

/-- The package taken out of service for a reason. -/
def holdOut (s : State) (reason : String) : State :=
  report { s with pkg := { s.pkg with service := .heldOut reason, explore := { s.pkg.explore with on := false } } } reason

/-- Whether two reports carry one name, or one of them carries IO die 0's. -/
def sameName (s : State) : Bool :=
  let names := nameOf s s.nring :: s.pkg.explore.got.map (fun r => r.name)
  decide (names.eraseDups.length ≠ names.length)

/-- EXPLORATION_QUIET_TIMEOUT (R263, R264, R266): names drawn anew, BADTOPO, or the almanac, after which boot goes on. -/
def execExplorationQuietTimeout (s : State) : Out :=
  event "EXPLORATION_QUIET_TIMEOUT" (fun s => s.pkg.explore.on && s.pkg.explore.flits.isEmpty && s.pkg.explore.sent.isEmpty)
    (fun s =>
      if sameName s then startExplore s (s.pkg.explore.draw + 1)
      else if badTopo s then holdOut s "BADTOPO"
      else
        let s1 := writeAlmanac s
        { s1 with pkg := { s1.pkg with service := .explored, explore := { s1.pkg.explore with on := false } } }) s

/-! ### Boot and reset (R269, R270, R274) -/

/-- A number as little-endian bytes. -/
def leBytes (v : Nat) : Nat → List Byte
  | 0 => []
  | n + 1 => BitVec.ofNat 8 v :: leBytes (v / 256) n

/-- The 64-byte SHAKE256 digest of a message (log entry 9). -/
def digest (m : List Byte) : List Byte := (List.range 64).map (Config.shake256 m)

/-- The header of an image without its signature (R268): length, security version, entry header's address, public key; the widths and
their order are a DESIGN CHOICE (log entry 9). -/
def Image.header (i : Image) : List Byte := leBytes i.body.length 4 ++ leBytes i.version.toNat 4 ++ leBytes i.entry.toNat 8 ++ i.key

/-- Whether the image passes step 1 (R268): the digest of its public key is the one in the fuses, its signature verifies over the digest
of header and body, and its security version is at least the fuses' minimum. One whose write was interrupted fails (R270). -/
def imageGood (s : State) : Bool :=
  match s.pkg.flash with
  | none => false
  | some i =>
    i.whole && digest i.key == (List.range 64).map Config.fuseDigest && Config.verifies i.key (digest (i.header ++ i.body)) i.sig &&
      decide (s.pkg.minVersion ≤ i.version)

/-- What survives a reset: fuses, flash with the wear record, which is written before a reset (R272), memory until the wipe, and what the
host has been told. -/
def resetCore (s : State) : State :=
  let p := s.pkg
  { mem := s.mem, poison := s.poison, agenda := s.agenda, free := s.free
    pkg := { code := p.code, lifecycle := p.lifecycle, keyNo := p.keyNo, minVersion := p.minVersion, flash := p.flash
             endorsed := p.endorsed, resets := p.resets + 1, wear := p.wear, wearFlash := p.wear
             mgmt := p.mgmt, hostStatus := p.hostStatus, explore := { draw := p.explore.draw } } }

/-- Step 2 of boot (R272): the record is read from flash; one that fails its digest is discarded. -/
def readRecord (s : State) : State :=
  { s with pkg := { s.pkg with wear := if Config.recordFails s.pkg.resets.toNat then {} else s.pkg.wearFlash } }

/-- A reset (R269): the wear record is written (R272), every wave, queue and register goes, and boot runs its steps 1 to 4: with a
good image the record is read, the links train and exploration starts, otherwise boot stops with BOOTFAIL. -/
def resetBegin (s : State) : State :=
  let s1 := resetCore s
  if imageGood s1 then
    let s2 := trainLinks (readRecord s1) s.pkg.failedLinks
    startExplore { s2 with pkg := { s2.pkg with service := .exploring, version := (s2.pkg.flash.map (fun i => i.version)).getD 0 } }
      (s2.pkg.explore.draw + 1)
  else report { s1 with pkg := { s1.pkg with service := .bootFail, downLinks := s.pkg.downLinks, failedLinks := s.pkg.failedLinks } } "BOOTFAIL"

/-- Every die, cluster and L2 bank after step 5 (R12 to R15, R17 to R19, R271). -/
def enableUnits (s : State) : State :=
  let dieOf (d : Nat) : Die :=
    let x : Die := { encl := enclOf s d, sites := sitesOf s d }
    { x with spareLanes := (List.range (enclOf s d)).filterMap (fun c =>
        (spareLaneOf s d ((lkGet x.sites c).getD c)).map (fun k => (c, k))) }
  let s1 : State := { s with
    dies := (List.range s.ndie).foldl (fun l d => spSet ({} : Die) l d (dieOf d)) []
    pkg := { s.pkg with bankSites := (List.range s.ndie).flatMap (bankSitesOf s) } }
  { s1 with
    clusters := (List.range s.ndie).foldl (fun l d => (List.range (s1.die d).encl).foldl (fun l c =>
      spSet ({} : Cluster) l (clKey d c) { spare := decide (64 ≤ s1.siteOf d c) }) l) [] }

/-- The wipe (R274): zeros everywhere and no sector poisoned; the almanac, which boot wrote before and which does not change until
the next reset (R266), stays (log entry 38). -/
def wipe (s : State) : State :=
  { s with mem := s.mem.filter (fun c => decide (almanacBase ≤ c.1 ∧ c.1 < almanacBase + 4096)), poison := [] }

/-- Step 7: the image at 0x10_0000 and the address-space table entry of ASID 0, whose table address is open (log entry 36). -/
def loadImage (s : State) : State :=
  let m := Memory.writeBytes s.mem 0x100000 ((s.pkg.flash.map (fun i => i.body)).getD [])
  { s with mem := Memory.writeN m 0 8 ((Config.bootTable s.pkg.resets.toNat).toNat * 2 ^ 14 + 1) }

/-- The supervisor launch that boot places on a die (R269, step 8): INHERIT as if 0, ASID 0. -/
def bootLaunch (h : Hdr) : Launch :=
  { hdr := { h with dw0 := h.dw0 &&& ~~~(BitVec.ofNat 64 (2 ^ 60)) }, arg := 0, depth := 0, limit := h.depth, asid := 0, sup := true }

/-- One supervisor wave placed on each compute die from a header. -/
def placeBoot (s : State) (h : Hdr) : State :=
  (List.range s.ndie).foldl (fun x d => (tryTeam x d 1 (bootLaunch h) 0).getD x) s

/-- Step 9: the package is in service with its Ethernet ports up, flow control off (R276). -/
def inServiceNow (s : State) : State := { s with pkg := { s.pkg with service := .running, ethUp := true, pfc := false } }

/-- Step 8 without a valid entry header: no wave is placed, BOOTFAIL is reported and no work runs; step 9 follows (log entry 36). -/
def noLaunchNow (s : State) : State := report { s with pkg := { s.pkg with service := .noLaunch, ethUp := true, pfc := false } } "BOOTFAIL"

/-- Steps 5 to 9 of boot (R269). -/
def bootFinish (s0 : State) : Out :=
  let s := selfTest s0
  match spareTrouble s with
  | some r => .next (holdOut s r)
  | none =>
    let s1 := loadImage (wipe (enableUnits s))
    if s1.pkg.lifecycle ≠ 2 then .next (inServiceNow s1)
    else
      let pa := (match s1.pkg.flash with | some i => i.entry.toNat | none => 0)
      if s1.installed < pa + 64 then .fault (.absentAddress pa)
      else
        let h := hdrOf (Memory.readN s1.mem pa 64)
        if h.invalid true then .next (noLaunchNow s1) else .next (inServiceNow (placeBoot s1 h))

/-- RESET (R269): it starts boot, and once exploration has ended it takes boot to its end. -/
def execResetP (s : State) : Out :=
  match s.pkg.service with
  | .explored => bootFinish s
  | _ => .next (resetBegin s)

/-! ### Flash and power -/

/-- FLASH_IMAGE_WRITE (R270): a new image of at most 15 MiB, with a key of 1,952 and a signature of 3,309 bytes (R268), tried at the next
reset; `whole` 0 is a write that is interrupted. -/
def execFlashImageWrite (whole : BitVec 1) (version : BitVec 32) (entry : U64) (p : ImageParts) (s : State) : Out :=
  event "FLASH_IMAGE_WRITE"
    (fun s => decide (s.pkg.service ≠ .off ∧ p.body.length ≤ 15 * 2 ^ 20 ∧ p.key.length = 1952 ∧ p.sig.length = 3309))
    (fun s => { s with pkg := { s.pkg with flash := some { whole := whole == 1, version := version, entry := entry, key := p.key
                                                           sig := p.sig, body := p.body } } }) s

/-- WEAR_RECORD_WRITE (R272). -/
def execWearRecordWrite (s : State) : Out :=
  event "WEAR_RECORD_WRITE" (fun s => decide (s.pkg.service ≠ .off)) (fun s => { s with pkg := { s.pkg with wearFlash := s.pkg.wear } }) s

/-- POWER_FAILURE (R272): counts since the last write of the wear record are lost, and so is all work. -/
def execPowerFailure (s : State) : Out :=
  let p := s.pkg
  .next
    { mem := s.mem, poison := s.poison, agenda := s.agenda, free := s.free
      pkg := { code := p.code, service := .off, lifecycle := p.lifecycle, keyNo := p.keyNo, minVersion := p.minVersion, flash := p.flash
               endorsed := p.endorsed, resets := p.resets, downLinks := p.downLinks, failedLinks := p.failedLinks, wear := p.wearFlash
               wearFlash := p.wearFlash, explore := { draw := p.explore.draw } } }

end Sys2Proof.Machine
end

