-- ==== Sys2Proof/Machine/Manage.lean ====
section
/-! DEFINITION. The management commands, the lifecycle and attestation, and RDMA from outside (R273, R275, R277 to R282). -/

namespace Sys2Proof.Machine

/-! ### The mailbox (R280) -/

/-- The mailbox's physical address (R267). -/
def mailbox : Nat := 0xC1000

/-- A doubleword of the mailbox. -/
def mailD (s : State) (off : Nat) : U64 := BitVec.ofNat 64 (Memory.readN s.mem (mailbox + off) 8)

/-- Whether the mailbox holds a command that the management controller has not taken: REQ differs from RSP, and no command of the
mailbox is taken and not completed. -/
def mailNew (s : State) : Bool := mailD s 0x000 != mailD s 0x080 && s.pkg.cmds.all (fun c => c.host)

/-- Whether the management controller takes commands: the package has booted, or is held out of service (R270); after a failure of step
1 it takes only image writes. -/
def takesCommands (s : State) : Bool :=
  match s.pkg.service with
  | .running => true
  | .noLaunch => true
  | .heldOut _ => true
  | _ => false

/-- Whether a taken command is the one that a row names. -/
def Command.isRow (c : Command) (host : BitVec 1) (code a0 a1 a2 a3 : U64) : Bool :=
  c.host == (host == 1) && c.code == code && c.a0 == a0 && c.a1 == a1 && c.a2 == a2 && c.a3 == a3

/-- Whether the row's command is the oldest taken one (R280: one at a time, in arrival order). -/
def isOldest (s : State) (host : BitVec 1) (code a0 a1 a2 a3 : U64) : Bool :=
  match s.pkg.cmds with
  | c :: _ => c.isRow host code a0 a1 a2 a3
  | [] => false

/-- Whether the row's command arrives now: the host sends it, or the mailbox holds it. -/
def arrives (s : State) (host : BitVec 1) (code a0 a1 a2 a3 : U64) : Bool :=
  host == 1 || (mailNew s && mailD s 0x008 == code && mailD s 0x010 == a0 && mailD s 0x018 == a1 && mailD s 0x020 == a2 &&
    mailD s 0x028 == a3)

/-- The copy that is taken of a command (R280): later writes to the mailbox do not change it. -/
def copyOf (s : State) (host : BitVec 1) (code a0 a1 a2 a3 : U64) : Command :=
  { host := host == 1, req := mailD s 0x000, code := code, a0 := a0, a1 := a1, a2 := a2, a3 := a3 }

/-- A command completed with a status and a result: to the host, or in the mailbox, where RSP takes last the value of REQ with which the
command was taken (R280). -/
def complete (c : Command) (status : Nat) (res : U64) (s : State) : State :=
  if c.host then { s with pkg := { s.pkg with hostStatus := some (status, res) } }
  else
    let m := Memory.writeN (Memory.writeN s.mem (mailbox + 0x088) 8 status) (mailbox + 0x090) 8 res.toNat
    { s with mem := Memory.writeN m (mailbox + 0x080) 8 c.req.toNat }

/-- A management command (R280): the oldest taken one is performed unless it waits; one that arrives is performed at once where none is
taken and it need not wait, and otherwise taken behind the others. -/
def command (name : String) (host : BitVec 1) (code a0 a1 a2 a3 : U64) (waits : State → Bool) (own : Command → State → State) (s : State) : Out :=
  event name
    (fun s => takesCommands s &&
      (if isOldest s host code a0 a1 a2 a3 then !waits s else arrives s host code a0 a1 a2 a3))
    (fun s =>
      match s.pkg.cmds with
      | c :: t =>
        if isOldest s host code a0 a1 a2 a3 then own c { s with pkg := { s.pkg with cmds := t } }
        else { s with pkg := { s.pkg with cmds := s.pkg.cmds ++ [copyOf s host code a0 a1 a2 a3] } }
      | [] =>
        if waits s then { s with pkg := { s.pkg with cmds := [copyOf s host code a0 a1 a2 a3] } }
        else own (copyOf s host code a0 a1 a2 a3) s) s

/-- A command that never waits. -/
def promptly (_ : State) : Bool := false

/-- Whether a command is refused for the lifecycle state (R281). -/
def notOperational (s : State) : Bool := s.pkg.lifecycle != 2

/-- A command's answer in the order of R281: BADSTATE, BADARG, then its own. -/
def answer (c : Command) (badState badArg : Bool) (own : State → State) (s : State) : State :=
  if badState then complete c 3 0 s else if badArg then complete c 2 0 s else own s

/-! ### Windows (R279, R281, R282) -/

/-- Whether a target lies in a network window. -/
def Target.isWin (g : Target) (n : Nat) : Bool :=
  match g with
  | .win k _ => k == n
  | _ => false

/-- Whether a command of a bulk engine reads or writes through a network window. -/
def copyUses (s : State) (die cl n : Nat) (b : Bulk) : Bool :=
  (copyScan (copyView s die cl b) b.dst b.src b.count).bytes.any (fun e => e.1.any (·.isWin n) || e.2.any (·.isWin n))

/-- Whether an operation through a window is under way (R282): a request, a load, an atomic's reply, or a bulk copy. -/
def windowBusy (s : State) (n : Nat) : Bool :=
  s.waves.any (fun w => w.reqs.any (fun r => r.tgt.isWin n) || w.openLoads.any (fun l => l.tgt.isWin n) ||
    w.replies.any (fun r => r.tgt.isWin n)) ||
  s.clusters.any (fun e => e.2.bulk.any (copyUses s (e.1 / 64) (e.1 % 64) n))

/-- A window descriptor set. -/
def setWindow (s : State) (n : Nat) (d : Window) : State := { s with pkg := { s.pkg with windows := spSet ({} : Window) s.pkg.windows n d } }

/-- Whether SETWIN's arguments are out of range: bits outside its fields, or a queue pair that is not connected. -/
def setwinBad (s : State) (a0 a3 : U64) : Bool :=
  bits a0.toNat 11 5 != 0 || bits a0.toNat 43 21 != 0 || bits a3.toNat 32 32 != 0 || (lkGet s.pkg.qps (bits a0.toNat 16 24)).isNone

/-- SETWIN. -/
def execSetwin (host : BitVec 1) (a0 a1 a2 a3 : U64) (s : State) : Out :=
  command "SETWIN" host 1 a0 a1 a2 a3 (fun s => !notOperational s && !setwinBad s a0 a3 && windowBusy s (bits a0.toNat 0 8))
    (fun c s => answer c (notOperational s) (setwinBad s a0 a3) (fun s =>
      complete c 0 0 (setWindow s (bits a0.toNat 0 8)
        { valid := true, port := BitVec.ofNat 3 (bits a0.toNat 8 3), qp := BitVec.ofNat 24 (bits a0.toNat 16 24), base := a1, len := a2
          key := BitVec.ofNat 32 a3.toNat, rights := BitVec.ofNat 3 (bits a0.toNat 40 3) })) s) s

/-- CLRWIN. -/
def execClrwin (host : BitVec 1) (a0 a1 a2 a3 : U64) (s : State) : Out :=
  command "CLRWIN" host 2 a0 a1 a2 a3 (fun s => !notOperational s && decide (a0.toNat < 256) && windowBusy s a0.toNat)
    (fun c s => answer c (notOperational s) (decide (256 ≤ a0.toNat)) (fun s => complete c 0 0 (setWindow s a0.toNat {})) s) s

/-! ### Inbound regions (R278, R281, R282) -/

/-- An inbound region set. -/
def setRegion (s : State) (n : Nat) (r : Region) : State := { s with pkg := { s.pkg with regions := spSet ({} : Region) s.pkg.regions n r } }

/-- Whether SETINB's arguments are out of range: bits outside its fields, an alignment, or a region that ends past installed memory.
DESIGN CHOICE (log entry 45) for the last: R281 states no range for a physical address. -/
def setinbBad (s : State) (a0 a1 a2 : U64) : Bool :=
  bits a0.toNat 6 2 != 0 || bits a0.toNat 11 53 != 0 || bits a1.toNat 0 12 != 0 || bits a2.toNat 0 12 != 0 || a2 == 0 ||
    decide (s.installed < a1.toNat + a2.toNat)

/-- Whether an inbound operation on a region is in progress (R282). -/
def regionBusy (s : State) (n : Nat) : Bool := s.pkg.inbound.any (fun m => m.region == n)

/-- SETINB: the key it returns is open (log entry 8). -/
def execSetinb (host : BitVec 1) (a0 a1 a2 a3 : U64) (s : State) : Out :=
  command "SETINB" host 3 a0 a1 a2 a3 promptly
    (fun c s => answer c (notOperational s) (setinbBad s a0 a1 a2) (fun s =>
      let key := Config.regionKey s.free
      complete c 0 (key.setWidth 64) (setRegion s (bits a0.toNat 0 6)
        { valid := true, base := a1, len := a2, rights := BitVec.ofNat 3 (bits a0.toNat 8 3), key := key })) s) s

/-- CLRINB: it completes only after every inbound operation in progress on the region has been performed (R282); those that arrive while
it waits are later ones and get the NAK. -/
def execClrinb (host : BitVec 1) (a0 a1 a2 a3 : U64) (s : State) : Out :=
  command "CLRINB" host 4 a0 a1 a2 a3 (fun s => !notOperational s && decide (a0.toNat < 64) && regionBusy s a0.toNat)
    (fun c s => answer c (notOperational s) (decide (64 ≤ a0.toNat)) (fun s => complete c 0 0 (setRegion s a0.toNat {})) s) s

/-- The index of a valid region that covers `n` bytes from an address with the right key and right (R278): R, W and A in bits 0, 1 and
2. A CLRINB that waits has closed its region to what arrives (R282). -/
def regionFor (s : State) (key : BitVec 32) (pa n right : Nat) : Option Nat :=
  (s.pkg.regions.find? (fun e => e.2.valid && e.2.key == key && decide (e.2.base.toNat ≤ pa ∧ pa + n ≤ e.2.base.toNat + e.2.len.toNat) &&
    e.2.rights.getLsbD right && !s.pkg.cmds.any (fun c => c.code == 4 && c.a0.toNat == e.1))).map Prod.fst

/-- Bytes stored from outside (R278); a sector covered whole is no longer poisoned (R254). -/
def storeInbound (s : State) (pa : Nat) (data : List Byte) : State :=
  { s with mem := Memory.writeBytes s.mem pa data
           poison := s.poison.filter (fun k => !(decide (pa ≤ 32 * k) && decide (32 * k + 32 ≤ pa + data.length))) }

/-- The answer to a peer: the NAK, or none and the bytes returned. -/
def peerAnswer (s : State) (nak : Bool) (out : List Byte) : State := { s with pkg := { s.pkg with nak := nak, rdmaOut := out } }

/-- The IO die of a queue pair's port (R276), as a node of the routes. -/
def qpNode (s : State) (qp : Nat) : Nat := s.nring + (((lkGet s.pkg.qps qp).map (fun q => q.port.toNat)).getD 0) / 4

/-- A message cut at aligned 8-byte units, each of which is stored whole (R278); `fuel` is its length. -/
def unitsOf : Nat → Nat → List Byte → List (Nat × List Byte)
  | 0, _, _ => []
  | fuel + 1, pa, data =>
    if data.isEmpty then []
    else
      let n := 8 - pa % 8
      (pa, data.take n) :: unitsOf fuel (pa + n) (data.drop n)

/-- Whether a queue pair is connected and the package takes messages from it. -/
def takesPeer (s : State) (qp : Nat) : Bool := inService s && (lkGet s.pkg.qps qp).isSome

/-- Whether no earlier WRITE message of a queue pair is still to be stored: every byte of it is visible before any later message's
(R278). -/
def qpClear (s : State) (qp : Nat) : Bool := s.pkg.inbound.all (fun m => m.qp != qp)

/-- The oldest message of a queue pair, with its place. -/
def oldestOf (s : State) (qp : Nat) : Option (Inbound × Nat) := s.pkg.inbound.zipIdx.find? (fun e => e.1.qp == qp)

/-- The sectors that `n` bytes from an address cover whole. -/
def wholeSectors (pa n : Nat) : List Nat := (List.range ((pa + n) / 32 - ceilDiv pa 32)).map (ceilDiv pa 32 + ·)

/-- One unit of a message stored; with the last one of a sector that the message covers whole the sector is no longer poisoned (R254), and
the message ends with its last one. -/
def storePart (s : State) (m : Inbound) (at_ : Nat) (k : Nat) : State :=
  match m.parts[k]? with
  | none => s
  | some (pa, data) =>
    let rest := m.parts.eraseIdx k
    let s1 := storeInbound s pa data
    { s1 with
      poison := if m.whole.contains (pa / 32) && rest.all (fun e => e.1 / 32 != pa / 32) then s1.poison.filter (· != pa / 32) else s1.poison
      pkg := { s1.pkg with inbound :=
        if rest.isEmpty then s1.pkg.inbound.eraseIdx at_ else s1.pkg.inbound.set at_ { m with parts := rest } } }

/-- INBOUND_RDMA_WRITE (R278): with `store` 0 a message arrives on a queue pair and is accepted in units or gets the NAK; with `store` 1
unit `part` of the queue pair's oldest message is stored through its home bank, unless a failed link holds it (R262). -/
def execInboundRdmaWrite (m : PeerWrite) (pa : U64) (data : List Byte) (s : State) : Out :=
  event "INBOUND_RDMA_WRITE"
    (fun s => takesPeer s m.qp.toNat &&
      (m.store == 0 ||
        (match oldestOf s m.qp.toNat with
         | some (x, _) => (match x.parts[m.part.toNat]? with
           | some e => !heldBetween s (qpNode s m.qp.toNat) (homeNode s e.1)
           | none => false)
         | none => false)))
    (fun s =>
      if m.store = 0 then
        match regionFor s m.key pa.toNat data.length 1 with
        | none => peerAnswer s true []
        | some n =>
          if data.isEmpty then peerAnswer s false []
          else peerAnswer { s with pkg := { s.pkg with inbound := s.pkg.inbound ++
            [{ qp := m.qp.toNat, region := n, parts := unitsOf data.length pa.toNat data, whole := wholeSectors pa.toNat data.length }] } } false []
      else
        match oldestOf s m.qp.toNat with
        | some (x, i) => storePart s x i m.part.toNat
        | none => s) s

/-- The granules that an access from outside touches, by an address in each. -/
def granulesOf (pa n : Nat) : List Nat := (List.range ((pa % 1024 + n + 1023) / 1024)).map (fun k => pa / 1024 * 1024 + 1024 * k)

/-- Whether a failed link holds an inbound access or its answer (R262). -/
def peerHeld (s : State) (qp pa n : Nat) : Bool :=
  (granulesOf pa n).any (fun a => heldBetween s (qpNode s qp) (homeNode s a) || heldBetween s (homeNode s a) (qpNode s qp))

/-- INBOUND_RDMA_READ: the values visible at SYSTEM scope, after the queue pair's earlier messages. -/
def execInboundRdmaRead (m : PeerAccess) (pa : U64) (n : BitVec 32) (s : State) : Out :=
  event "INBOUND_RDMA_READ" (fun s => takesPeer s m.qp.toNat && qpClear s m.qp.toNat && !peerHeld s m.qp.toNat pa.toNat n.toNat)
    (fun s =>
      if (regionFor s m.key pa.toNat n.toNat 0).isSome then peerAnswer s false (Memory.bytes s.mem pa.toNat n.toNat) else peerAnswer s true []) s

/-- INBOUND_RDMA_ATOMIC (R277): compare and swap, or fetch and add, of 8 aligned bytes; the old value returns. -/
def execInboundRdmaAtomic (m : PeerAccess) (pa : U64) (cas : BitVec 1) (x c : U64) (s : State) : Out :=
  event "INBOUND_RDMA_ATOMIC" (fun s => takesPeer s m.qp.toNat && qpClear s m.qp.toNat && !peerHeld s m.qp.toNat pa.toNat 8)
    (fun s =>
      if (regionFor s m.key pa.toNat 8 2).isSome && pa.toNat % 8 == 0 then
        let old := Memory.readN s.mem pa.toNat 8
        let new := bankOp 64 (if cas = 1 then 1 else 2) old x.toNat c.toNat
        peerAnswer { s with mem := Memory.writeN s.mem pa.toNat 8 new } false (Memory.bytes s.mem pa.toNat 8)
      else peerAnswer s true []) s

/-! ### Queue pairs (R277, R281, R282) -/

/-- A free local queue pair of the IO die of a port: 4,096 on each (R277), the second die's numbered from 4,096. -/
def freeQp (s : State) (port : Nat) : Option Nat :=
  let base := port / 4 * 4096
  let pick := base + Config.queuePairPick s.free % 4096
  if (lkGet s.pkg.qps pick).isNone then some pick
  else ((List.range 4096).map (base + ·)).find? (fun k => (lkGet s.pkg.qps k).isNone)

/-- Whether QPCONN's arguments are out of range. -/
def qpconnBad (a0 a3 : U64) : Bool := decide (8 ≤ a0.toNat) || decide (2 ^ 24 ≤ a3.toNat)

/-- QPCONN, when the peer answers; a new queue pair sends at its port's rate of 800 Gbit/s (R276). -/
def execQpconn (host : BitVec 1) (a0 a1 a2 a3 : U64) (s : State) : Out :=
  command "QPCONN" host 5 a0 a1 a2 a3 promptly
    (fun c s => answer c (notOperational s) (qpconnBad a0 a3) (fun s =>
      match freeQp s a0.toNat with
      | none => complete c 4 0 s
      | some k =>
        let q : Qp := { port := BitVec.ofNat 3 a0.toNat, gid0 := a1, gid1 := a2, remote := BitVec.ofNat 24 a3.toNat, rate := 800 }
        complete c 0 (BitVec.ofNat 64 k) { s with pkg := { s.pkg with qps := lkSet s.pkg.qps k q } }) s) s

/-- Whether a QPCONN waits for its peer: it is the oldest command or arrives with none before it, and only the peer is missing. -/
def connWaits (host : BitVec 1) (a0 a1 a2 a3 : U64) (s : State) : Bool :=
  takesCommands s && (isOldest s host 5 a0 a1 a2 a3 || (s.pkg.cmds.isEmpty && arrives s host 5 a0 a1 a2 a3)) && !notOperational s &&
    !qpconnBad a0 a3 && (freeQp s a0.toNat).isSome

/-- QPCONN_TIMEOUT: the peer does not answer within 1 s. -/
def execQpconnTimeout (host : BitVec 1) (a0 a1 a2 a3 : U64) (s : State) : Out :=
  event "QPCONN_TIMEOUT" (connWaits host a0 a1 a2 a3)
    (fun s =>
      match s.pkg.cmds with
      | c :: t => complete c 5 0 { s with pkg := { s.pkg with cmds := t } }
      | [] => complete (copyOf s host 5 a0 a1 a2 a3) 5 0 s) s

/-- QPCLOSE. -/
def execQpclose (host : BitVec 1) (a0 a1 a2 a3 : U64) (s : State) : Out :=
  command "QPCLOSE" host 6 a0 a1 a2 a3 promptly
    (fun c s => answer c (notOperational s) (lkGet s.pkg.qps a0.toNat).isNone (fun s =>
      if s.pkg.windows.any (fun e => e.2.valid && e.2.qp.toNat == a0.toNat) then complete c 3 0 s
      else complete c 0 0 { s with pkg := { s.pkg with qps := lkDel s.pkg.qps a0.toNat } }) s) s

/-- CONGESTION_NOTIFICATION_PACKET (R277): the queue pair's rate is reduced; by how much is open (log entry 30). -/
def execCongestionNotificationPacket (qp : BitVec 13) (s : State) : Out :=
  event "CONGESTION_NOTIFICATION_PACKET" (fun s => inService s && (lkGet s.pkg.qps qp.toNat).isSome)
    (fun s =>
      match lkGet s.pkg.qps qp.toNat with
      | none => s
      | some q => { s with pkg := { s.pkg with qps := lkSet s.pkg.qps qp.toNat { q with rate := min q.rate (Config.reducedRate s.free q.rate) } } }) s

/-! ### Attestation (R275) -/

/-- The wear record as bytes: its counters, test results and retired units; the layout is a DESIGN CHOICE (log entry 9). -/
def wearBytes (r : WearRecord) : List Byte :=
  r.counts.flatMap (fun e => leBytes e.1 8 ++ leBytes e.2 8) ++ r.tests.flatMap (fun k => leBytes k 8) ++
    r.retired.flatMap (fun k => leBytes k 8)

/-- The image as bytes (R268): header, signature, body. -/
def imageBytes (s : State) : List Byte :=
  match s.pkg.flash with
  | none => []
  | some i => i.header ++ i.sig ++ i.body

/-- What the management protocol reads of Ocsia's endorsement of the device public key, which is in flash (R275). -/
def hostEndorsement (s : State) : List Byte := (s.pkg.endorsed.map Config.endorsement).getD []

/-- The first 0x8A0 bytes of the report. -/
def reportHead (s : State) (nonce key : Nat) : List Byte :=
  Memory.bytes s.mem nonce 32 ++
  leBytes (s.pkg.lifecycle.toNat * 2 ^ 56 + s.pkg.version.toNat) 8 ++ leBytes s.pkg.resets.toNat 8 ++
  digest (imageBytes s) ++ digest (Memory.bytes s.mem almanacBase 4096) ++ digest (wearBytes s.pkg.wearFlash) ++
  (List.range 16).map Config.deviceId ++ (List.range 1952).map (Config.publicKey key)

/-- The report with its signature. -/
def attestReport (s : State) (nonce key : Nat) : List Byte :=
  let h := reportHead s nonce key
  h ++ (List.range 3309).map (Config.signature key (digest h))

/-- Whether ATTEST's addresses are out of range: the report's alignment, or bytes past installed memory. DESIGN CHOICE (log entry 45) for
the last: R281 states no range for a physical address. -/
def attestBad (s : State) (a0 a1 : U64) : Bool :=
  bits a1.toNat 0 13 != 0 || decide (s.installed < a0.toNat + 32) || decide (s.installed < a1.toNat + 5517)

/-- ATTEST. -/
def execAttest (host : BitVec 1) (a0 a1 a2 a3 : U64) (s : State) : Out :=
  command "ATTEST" host 7 a0 a1 a2 a3 promptly
    (fun c s => answer c false (attestBad s a0 a1) (fun s =>
      match s.pkg.keyNo with
      | none => complete c 6 0 s
      | some k => complete c 0 0 (storeInbound s a1.toNat (attestReport s a0.toNat k))) s) s

/-! ### Lifecycle (R273) -/

/-- Whether a lifecycle transition exists for the LIFECYCLE command. -/
def transition (a b : Nat) : Bool := (a == 1 && b == 2) || (a == 1 && b == 3) || (a == 2 && b == 3)

/-- LIFECYCLE: OK, then the reset; RETURNED erases the private key. -/
def execLifecycle (host : BitVec 1) (a0 a1 a2 a3 : U64) (s : State) : Out :=
  command "LIFECYCLE" host 8 a0 a1 a2 a3 promptly
    (fun c s => answer c false (decide (4 ≤ a0.toNat)) (fun s =>
      if !transition s.pkg.lifecycle.toNat a0.toNat then complete c 3 0 s
      else
        let s1 := complete c 0 0 s
        resetBegin { s1 with pkg := { s1.pkg with lifecycle := BitVec.ofNat 2 a0.toNat
                                                  keyNo := if a0 = 3 then none else s1.pkg.keyNo } }) s) s

/-- SETCAP. -/
def execSetcap (host : BitVec 1) (a0 a1 a2 a3 : U64) (s : State) : Out :=
  command "SETCAP" host 9 a0 a1 a2 a3 promptly
    (fun c s => answer c (notOperational s) (decide (2 ^ 16 ≤ a0.toNat)) (fun s =>
      complete c 0 0 { s with pkg := { s.pkg with cap := BitVec.ofNat 16 a0.toNat } }) s) s

/-- PROVISION: OK, then the key pair and the reset; the count of resets starts. -/
def execProvision (host : BitVec 1) (a0 a1 a2 a3 : U64) (s : State) : Out :=
  command "PROVISION" host 10 a0 a1 a2 a3 promptly
    (fun c s => answer c (s.pkg.lifecycle != 0) (a0 != 0) (fun s =>
      let s1 := complete c 0 0 s
      resetBegin { s1 with pkg := { s1.pkg with lifecycle := 1, keyNo := some s.free, endorsed := some s.free, resets := 0 } }) s) s

/-- BADCMD (R281): a code that is not listed. -/
def execBadcmd (host : BitVec 1) (c : CommandWords) (s : State) : Out :=
  if c.code = 0 ∨ 10 < c.code.toNat then command "BADCMD" host c.code c.a0 c.a1 c.a2 c.a3 promptly (fun c => complete c 1 0) s
  else .refused (.notEnabled "BADCMD")

end Sys2Proof.Machine
end

