-- ==== Sys2Proof/Machine/Debug.lean ====
section
/-! DEFINITION. The debug port and HALT, soft errors, link errors and power (R24, R223, R240, R253, R254, R256 to R260, R262, R283,
R284). -/

namespace Sys2Proof.Machine

/-! ### The debug port (R257, R258) -/

/-- The wave that a debug command names: by die, cluster and WID. -/
def debugWave (s : State) (die cl : Nat) (wid : U64) : Option Nat := ((s.residents die cl).find? (fun w => w.wid == wid)).map (fun w => w.id)

/-- A debug command's answer. -/
def debugAnswer (s : State) (status : String) (x : U64) : State := { s with pkg := { s.pkg with debugOut := some (status, x) } }

/-- A debug command on the wave it names: NOWAVE when there is none; the command acts on the wave as focused. -/
def onDebug (die cl : Nat) (wid : U64) (f : State → State) (s : State) : State :=
  match debugWave s die cl wid with
  | none => debugAnswer s "NOWAVE" 0
  | some id => (f (s.focus id)).focus s.w.id

/-- DEBUG_STOP: a debug event, which needs ENA = 1; without it nothing stops and the answer is NOTSTOPPED (log entry 39). -/
def execDebugStop (die : BitVec 4) (cl : BitVec 6) (wid : U64) (s : State) : Out :=
  event "DEBUG_STOP" inService
    (onDebug die.toNat cl.toNat wid (fun s => if s.w.dbg.ena then debugAnswer (stopWave s) "OK" 0 else debugAnswer s "NOTSTOPPED" 0)) s

/-- Every stopped part released: the latches of VPs that a lane-stop held are invalid (R44, R87), and each part that stopped at the breakpoint
passes it once. -/
def Wave.resume (w : Wave) : Wave :=
  { w with latches := w.dbg.vps.foldl lkDel w.latches, dbg := { w.dbg with stopped := false, vps := [] } }

/-- DEBUG_RESUME: every stopped part goes on. -/
def execDebugResume (die : BitVec 4) (cl : BitVec 6) (wid : U64) (s : State) : Out :=
  event "DEBUG_RESUME" inService
    (onDebug die.toNat cl.toNat wid (fun s =>
      if s.w.anyStopped then debugAnswer (s.mapW Wave.resume) "OK" 0
      else debugAnswer s "NOTSTOPPED" 0)) s

/-- A spilled register that the debugger names is refilled before (R259). -/
def debugRefill (s : State) (v : Nat) : State :=
  if s.w.spilled v then refillOwn (makeRoom s (refillSegs s.w v)) v else s

/-- A doubleword of the context image that the wave would have now. -/
def imageDword (s : State) (k : Nat) : U64 :=
  match saveContext s s.w.pc with
  | .error _ => 0
  | .ok x =>
    match resolve x Acc.load false (BitVec.ofNat 64 (s.saveArea + 8 * k)) 8 with
    | .ok g => BitVec.ofNat 64 (targetRead x x.w.team g 8)
    | .error _ => 0

/-- What READ returns: 0 scalar register n, 1 element i of register n, 2 doubleword i of mask n, 3 control register n, 4 doubleword
n × 8,192 + i of the context image. -/
def debugValue (s : State) (item n i : Nat) : U64 :=
  if item = 0 then s.w.gs (BitVec.ofNat 5 n)
  else if item = 1 then (s.w.reg n).elem i
  else if item = 2 then BitVec.ofNat 64 (bits (s.w.mask (BitVec.ofNat 3 n)).toNat (64 * i) 64)
  else if item = 3 then s.crValue n
  else imageDword s (n * 8192 + i)

/-- Whether READ's or WRITE's item, number and index name something. -/
def debugNamed (item n i : Nat) : Bool :=
  (item == 0 && decide (n < 32)) || (item == 1 && decide (n < 64)) || (item == 2 && decide (n < 8 ∧ i < 128)) ||
    (item == 3 && assignedCr (BitVec.ofNat 12 n) && decide (n < 4096)) || item == 4

/-- Whether the register that a command names is spilled still: its refill faulted (R94). The command is then not carried out and answers
PENDING (DESIGN CHOICE, log entry 39). -/
def unrefilled (s : State) (item n : Nat) : Bool := item == 1 && s.w.spilled n

/-- DEBUG_READ. -/
def execDebugRead (die : BitVec 4) (cl : BitVec 6) (wid : U64) (item : BitVec 3) (n i : BitVec 13) (s : State) : Out :=
  event "DEBUG_READ" (fun s => inService s && debugNamed item.toNat n.toNat i.toNat)
    (onDebug die.toNat cl.toNat wid (fun s =>
      if s.w.anyStopped then
        let s1 := if item = 1 then debugRefill s n.toNat else s
        if unrefilled s1 item.toNat n.toNat then debugAnswer s1 "PENDING" 0
        else debugAnswer s1 "OK" (debugValue s1 item.toNat n.toNat i.toNat)
      else debugAnswer s "NOTSTOPPED" 0)) s

/-- Whether a destination is the register that WRITE names: 0 a scalar register, 1 a vector register. -/
def Dst.names (d : Dst) (item n : Nat) : Bool :=
  match d with
  | .sreg r => item == 0 && r.toNat == n
  | .elem v _ => item == 1 && v == n
  | .loc v _ => item == 1 && v == n
  | .none => false

/-- The destination register of an entry that has been sent early (R154). -/
def QEntry.earlyReg (e : QEntry) : Option Nat := if e.early.isSome then some (bits e.word.toNat 17 6) else none

/-- Whether data for the register is still to land (R259). -/
def writePending (w : Wave) (item n : Nat) : Bool :=
  (w.loads ++ w.vland).any (fun l => l.dst.names item n) || w.reqs.any (fun r => r.dst.names item n) ||
    w.replies.any (fun r => r.dst.names item n) || (item == 1 && w.vq.any (fun e => e.earlyReg == some n))

/-- The register written (R258, R76): a scalar register, or one element of a vector register that is not spilled. -/
def debugPut (s : State) (item n i : Nat) (x : U64) : State :=
  if item = 0 then s.mapW (fun w => w.ss (BitVec.ofNat 5 n) x)
  else
    let s1 := makeRoom s (s.w.grow n)
    s1.mapW (fun w => w.writeReg s1.free n [(i, x)])

/-- What a load buffer's element becomes when the debugger has written its register by force: what the register holds. -/
def Early.force (x : U64) : Early → Early
  | .value g _ => .forced g x
  | y => y

/-- Data for the register that arrives later is discarded (R259): its loads and atomics still complete; an early-sent element
lands with the value the register holds. -/
def discardLate (w : Wave) (item n : Nat) : Wave :=
  let off (d : Dst) : Dst := if d.names item n then .none else d
  { w with
    loads := w.loads.map (fun l => { l with dst := off l.dst })
    vland := w.vland.map (fun l => { l with dst := off l.dst })
    reqs := w.reqs.map (fun r => { r with dst := off r.dst })
    replies := w.replies.map (fun r => { r with dst := off r.dst })
    vq := w.vq.map (fun e =>
      if item = 1 ∧ e.earlyReg = some n then
        { e with early := e.early.map (fun l => l.map (fun k => (k.1, k.2.force ((w.reg n).elem (k.1 % 8192))))) }
      else e) }

/-- Whether a WRITE may be carried out or answered now: with WMODE 1 it waits for data to land, and one that writes waits for
segments. -/
def writeReady (s : State) (die cl : Nat) (wid : U64) (item n : Nat) : Bool :=
  match debugWave s die cl wid with
  | none => true
  | some id =>
    let v := s.focus id
    if !v.w.anyStopped then true
    else if writePending v.w item n && v.w.dbg.wmode != 2 then v.w.dbg.wmode != 1
    else item == 0 || poolHas v (if v.w.spilled n then refillSegs v.w n else v.w.grow n)

/-- WRITE on a stopped wave whose register may be written (R259): a spilled register is refilled first. -/
def debugWrite (s : State) (item n i : Nat) (x : U64) : State :=
  let s1 := if item = 1 then debugRefill s n else s
  if unrefilled s1 item n then debugAnswer s1 "PENDING" 0
  else
    let s2 := debugPut s1 item n i x
    debugAnswer (if writePending s1.w item n then s2.mapW (fun w => discardLate w item n) else s2) "OK" 0

/-- DEBUG_WRITE (R259). -/
def execDebugWrite (die : BitVec 4) (cl : BitVec 6) (wid : U64) (item : BitVec 3) (n i : BitVec 13) (x : U64) (s : State) : Out :=
  event "DEBUG_WRITE"
    (fun s => inService s && decide (item.toNat < 2) && debugNamed item.toNat n.toNat i.toNat &&
      writeReady s die.toNat cl.toNat wid item.toNat n.toNat)
    (onDebug die.toNat cl.toNat wid (fun s =>
      if !s.w.anyStopped then debugAnswer s "NOTSTOPPED" 0
      else if writePending s.w item.toNat n.toNat && s.w.dbg.wmode != 2 then debugAnswer s "PENDING" 0
      else debugWrite s item.toNat n.toNat i.toNat x)) s

/-- HALT (R260): a compute die stops; after a failure of boot's step 1 the management controller takes no such command (R270). -/
def execHaltDie (die : BitVec 4) (s : State) : Out :=
  if s.ndie ≤ die.toNat then .refused (.noSuchUnit "HALT")
  else event "HALT" takesCommands (fun s => debugAnswer (s.setDie die.toNat { s.die die.toNat with halted := true }) "OK" 0) s

/-- UNHALT (R260). -/
def execUnhaltDie (die : BitVec 4) (s : State) : Out :=
  if s.ndie ≤ die.toNat then .refused (.noSuchUnit "UNHALT")
  else event "UNHALT" takesCommands (fun s => debugAnswer (s.setDie die.toNat { s.die die.toNat with halted := false }) "OK" 0) s

/-! ### Soft errors (R253, R254) -/

/-- The key of a unit's window of corrected-error records. -/
def eccKey (die cl u : Nat) : Nat := clKey die cl * 8 + u

/-- The wear counter of a corrected error, by the physical part that failed: for unit 4 the row of the HBM4 stack or the L2 bank site of
the address (log entry 40). -/
def correctedKey (s : State) (die cl u : Nat) (hbm : BitVec 1) (n : Nat) : Nat :=
  if u = 4 then
    if hbm = 1 then wearRow (homeDie s n) (stackRowOf s n) else wearBank (homeDie s n) (s.physBank (homeDie s n) (homeBank s n))
  else wearUnit die (s.siteOf die cl) u

/-- The element or row index of an error's record (R243), where one applies. -/
def eccIndex (u n : Nat) : Nat := if u = 1 then bits n 16 14 else if u = 5 then bits n 0 6 else 0

/-- The value of an error's record, as EVAL would hold it (R243, R253): register and element, an address in aperture form, an address; for
a tile's row it is open (log entry 34). -/
def eccValue (s : State) (u n : Nat) : U64 :=
  if u = 1 then BitVec.ofNat 64 (bits n 0 6 + bits n 16 14 * 2 ^ 16)
  else if u = 2 then BitVec.ofNat 64 (0x0FFFFF0000000000 + n)
  else if u = 5 then Config.rowError s.free
  else BitVec.ofNat 64 n

/-- ECC_CORRECTED (R253): the counter, and a record unless the unit's 1 ms window is open. -/
def execEccCorrected (die : BitVec 4) (cl : BitVec 6) (u : ErrorUnit) (n : U64) (s : State) : Out :=
  if !s.hasCluster die.toNat cl.toNat then .refused (.noSuchUnit "ECC_CORRECTED")
  else
    event "ECC_CORRECTED" (fun s => inService s && decide (1 ≤ u.code.toNat ∧ u.code.toNat ≤ 6))
      (fun s =>
        let k := eccKey die.toNat cl.toNat u.code.toNat
        let s1 := bumpWear s (correctedKey s die.toNat cl.toNat u.code.toNat u.stack n.toNat) 1
        if s.pkg.windowEcc.contains k then s1
        else
          ringWrite { s1 with pkg := { s1.pkg with windowEcc := k :: s1.pkg.windowEcc } } die.toNat 0
            (recordWord 0x0F 0 0 die.toNat cl.toNat true u.code.toNat (eccIndex u.code.toNat n.toNat)) 0 (eccValue s u.code.toNat n.toNat).toNat) s

/-- ERROR_RECORD_WINDOW (R253): a unit's window ends. -/
def execErrorRecordWindow (die : BitVec 4) (cl : BitVec 6) (u : BitVec 3) (s : State) : Out :=
  if !s.hasCluster die.toNat cl.toNat then .refused (.noSuchUnit "ERROR_RECORD_WINDOW")
  else
    event "ERROR_RECORD_WINDOW" (fun s => s.pkg.windowEcc.contains (eccKey die.toNat cl.toNat u.toNat))
      (fun s => { s with pkg := { s.pkg with windowEcc := s.pkg.windowEcc.filter (· != eccKey die.toNat cl.toNat u.toNat) } }) s

/-- Where an uncorrectable error may strike, by unit code: 1 element n[29:16] of live register n[5:0], 2 offset n of the team's
scratchpad, 3 sector n of L1, 4 physical address n, 5 row n[5:0] of tile n[18:16] of the owner, 6 the wave's own state. -/
def eccPlace (s : State) (u n : Nat) : Bool :=
  if u = 1 then decide ((s.w.reg (bits n 0 6)).st = .live ∧ bits n 16 14 < (s.w.reg (bits n 0 6)).tag)
  else if u = 2 then s.myTeam.cl.isSome && decide (n < s.myTeam.bytes)
  else if u = 3 then true
  else if u = 4 then decide (n < s.installed)
  else if u = 5 then s.myCluster.owner == some s.w.id && decide (bits n 16 3 < 4)
  else u == 6

/-- What an uncorrectable error leaves, before its record (R253, R254): a marked element, doubleword, sector or row, or a line of
L1 and the instruction caches that is fetched again. -/
def eccMark (s : State) (u : Nat) (hbm : BitVec 1) (n : Nat) : State :=
  if u = 1 then
    let v := bits n 0 6
    let i := bits n 16 14
    let s1 := bumpWear s (wearReg s.w.die (s.siteOf s.w.die s.w.cl) (s.physLane s.w.die s.w.cl (s.w.base + s.w.laneOf i))) 1
    s1.mapW (fun w => w.setReg v { w.reg v with bad := i :: (w.reg v).bad.filter (· != i) })
  else if u = 2 then
    let t := s.myTeam
    s.setTeam s.w.team { t with bad := n / 8 :: t.bad.filter (· != n / 8) }
  else if u = 3 then
    let c := s.myCluster
    s.setMyCluster { c with l1 := lkDel c.l1 n, icache := c.icache.filter (fun e => e.1 / 32 != n) }
  else if u = 4 then
    let d := homeDie s n
    let s1 := bumpWear s (if hbm = 1 then wearRowBad d (stackRowOf s n) else wearBankBad d (s.physBank d (homeBank s n))) 1
    { s1 with poison := n / 32 :: s1.poison.filter (· != n / 32) }
  else if u = 5 then s.mapW (fun w => { w with badRows := (bits n 16 3, bits n 0 6) :: w.badRows.filter (· != (bits n 16 3, bits n 0 6)) })
  else s

/-- ECC_UNCORRECTABLE (R253, R254, R240): the error strikes the focused wave, its cluster or its team, or package memory; it is
recorded, and in the wave's own state it is a double trap. -/
def execEccUncorrectable (u : ErrorUnit) (n : U64) (s : State) : Out :=
  event "ECC_UNCORRECTABLE" (fun s => onDuty s && eccPlace s u.code.toNat n.toNat)
    (fun s =>
      let s1 := waveRecord (eccMark s u.code.toNat u.stack n.toNat) 0x0F 0 false u.code.toNat (eccIndex u.code.toNat n.toNat) s.w.pc (eccValue s u.code.toNat n.toNat)
      if u.code = 6 then doubleTrap s1 0x0F n else s1) s

/-! ### Links (R262) -/

/-- LINK_ERROR_RETRY (R262): software sees only the latency. -/
def execLinkErrorRetry (l : BitVec 6) (s : State) : Out :=
  event "LINK_ERROR_RETRY" (fun s => decide (l.toNat < s.links) && s.trained l.toNat && !s.pkg.failedLinks.contains l.toNat) id s

/-- The compute dies at the ends of a link. -/
def linkDies (s : State) (l : Nat) : List Nat :=
  let n := s.nring
  let ends := if l < n then [l, (l + 1) % n] else if l < n + n / 2 then [l - n, l - n / 2]
    else if l < n + n / 2 + 2 then [l - n - n / 2] else [l - n - n / 2 - 2 + n / 2]
  (ends.filter (fun p => p % 2 == 0)).map (· / 2)

/-- LINK_TIMEOUT (R262): the link is marked failed and LINKFAIL reported; a halted die holds the timeout (R260). -/
def execLinkTimeout (l : BitVec 6) (s : State) : Out :=
  event "LINK_TIMEOUT"
    (fun s => inService s && decide (l.toNat < s.links) && s.trained l.toNat && !s.pkg.failedLinks.contains l.toNat &&
      (linkDies s l.toNat).all (fun d => !(s.die d).halted))
    (fun s => report { s with pkg := { s.pkg with failedLinks := l.toNat :: s.pkg.failedLinks } } "LINKFAIL") s

/-! ### Power (R24, R283, R284) -/

/-- The sustained core current (R283). -/
def sustained (s : State) : Nat := if s.pkg.code = .p8 then 8200 else 16400

/-- The ceiling in force: that of R1, or SETCAP's when it is lower. -/
def ceiling (s : State) : Nat :=
  let c := if s.pkg.code = .p8 then 10000 else 20000
  if s.pkg.cap = 0 then c else min c s.pkg.cap.toNat

/-- What an interval may total: above the sustained current only in a run of at most 10, after which 90 stay below (R283). -/
def intervalLimit (s : State) : Nat :=
  if s.pkg.power.rest = 0 ∧ s.pkg.power.above < 10 then ceiling s else min (ceiling s) (sustained s)

/-- The dies' grants one after another, each cut to what is left. -/
def grantList (s : State) : Nat → List Nat → List (Nat × Nat)
  | _, [] => []
  | left, d :: t =>
    let g := min left (Config.powerGrant s.pkg.power.interval d (dieRequest s d))
    (d, g) :: grantList s (left - g) t

/-- The next interval's grants, which leave 150 A for each memory die. -/
def nextGrants (s : State) : List (Nat × Nat) := grantList s (intervalLimit s - 150 * s.ndie) (List.range s.ndie)

/-- The total of an interval. -/
def grantTotal (s : State) (l : List (Nat × Nat)) : Nat := l.foldl (fun x e => x + e.2) (150 * s.ndie)

/-- The arbiter after an interval: the run above the sustained current and the rest owed after it, and which clusters had matrix work in
the interval that ends. -/
def nextPower (s : State) : Power :=
  let p := s.pkg.power
  let l := nextGrants s
  let q : Power := { p with interval := p.interval + 1, grants := l, recent := matrixClusters s, started := [] }
  if sustained s < grantTotal s l then { q with above := p.above + 1 }
  else if p.above ≠ 0 then { q with above := 0, rest := 89 }
  else { q with rest := p.rest - 1 }

/-- POWER_INTERVAL (R283). -/
def execPowerInterval (s : State) : Out :=
  event "POWER_INTERVAL" inService (fun s => { s with pkg := { s.pkg with power := nextPower s } }) s

/-- POWER_GRANT (R284): a die takes its grant, within which it delays matrix work and lockstep blocks (`matrixDelayed`, `blockDelayed`); the delay changes
no result. -/
def execPowerGrant (die : BitVec 4) (s : State) : Out :=
  if s.ndie ≤ die.toNat then .refused (.noSuchUnit "POWER_GRANT")
  else
    event "POWER_GRANT" (fun s => (lkGet s.pkg.power.grants die.toNat).isSome)
      (fun s =>
        let p := s.pkg.power
        { s with pkg := { s.pkg with power := { p with
            grants := lkDel p.grants die.toNat
            limits := lkSet p.limits die.toNat ((lkGet p.grants die.toNat).getD 0) } } }) s

end Sys2Proof.Machine
end

