-- ==== Sys2Proof/Machine/Dispatch.lean ====
section
/-! DEFINITION. The meaning of every instruction and of every row without encoding, one arm per constructor of Instr. -/

namespace Sys2Proof.Machine

/-- What an instruction, or a row without encoding, does. -/
def exec (i : Instr) (s : State) : Host.Outcome State Fault Refusal :=
  match i with
  | .add d a b => Sys2Proof.Machine.execAdd d a b s
  | .sub d a b => Sys2Proof.Machine.execSub d a b s
  | .mul d a b => Sys2Proof.Machine.execMul d a b s
  | .mulh d a b => Sys2Proof.Machine.execMulh d a b s
  | .mulhs d a b => Sys2Proof.Machine.execMulhs d a b s
  | .div d a b => Sys2Proof.Machine.execDiv d a b s
  | .divs d a b => Sys2Proof.Machine.execDivs d a b s
  | .rem d a b => Sys2Proof.Machine.execRem d a b s
  | .rems d a b => Sys2Proof.Machine.execRems d a b s
  | .andS d a b => Sys2Proof.Machine.execAndS d a b s
  | .orS d a b => Sys2Proof.Machine.execOrS d a b s
  | .xorS d a b => Sys2Proof.Machine.execXorS d a b s
  | .shl d a b => Sys2Proof.Machine.execShl d a b s
  | .shr d a b => Sys2Proof.Machine.execShr d a b s
  | .sar d a b => Sys2Proof.Machine.execSar d a b s
  | .slt d a b => Sys2Proof.Machine.execSlt d a b s
  | .slts d a b => Sys2Proof.Machine.execSlts d a b s
  | .minU d a b => Sys2Proof.Machine.execMinU d a b s
  | .mins d a b => Sys2Proof.Machine.execMins d a b s
  | .maxU d a b => Sys2Proof.Machine.execMaxU d a b s
  | .maxs d a b => Sys2Proof.Machine.execMaxs d a b s
  | .popc d a => Sys2Proof.Machine.execPopc d a s
  | .clz d a => Sys2Proof.Machine.execClz d a s
  | .addi d a imm => Sys2Proof.Machine.execAddi d a imm s
  | .andi d a imm => Sys2Proof.Machine.execAndi d a imm s
  | .ori d a imm => Sys2Proof.Machine.execOri d a imm s
  | .xori d a imm => Sys2Proof.Machine.execXori d a imm s
  | .shli d a imm => Sys2Proof.Machine.execShli d a imm s
  | .shri d a imm => Sys2Proof.Machine.execShri d a imm s
  | .sari d a imm => Sys2Proof.Machine.execSari d a imm s
  | .slti d a imm => Sys2Proof.Machine.execSlti d a imm s
  | .li d imm => Sys2Proof.Machine.execLi d imm s
  | .lis d imm => Sys2Proof.Machine.execLis d imm s
  | .ld d a z sf o => Sys2Proof.Machine.execLd d a z sf o s
  | .st d a z o => Sys2Proof.Machine.execSt d a z o s
  | .amo d a b o c r => Sys2Proof.Machine.execAmo d a b o c r s
  | .crrd d c => Sys2Proof.Machine.execCrrd d c s
  | .crwr a c => Sys2Proof.Machine.execCrwr a c s
  | .br o => Sys2Proof.Machine.execBr o s
  | .bc c a b o => Sys2Proof.Machine.execBc c a b o s
  | .call o => Sys2Proof.Machine.execCall o s
  | .jr d a => Sys2Proof.Machine.execJr d a s
  | .brany m o => Sys2Proof.Machine.execBrany m o s
  | .brall m o => Sys2Proof.Machine.execBrall m o s
  | .brnone m o => Sys2Proof.Machine.execBrnone m o s
  | .trapS c => Sys2Proof.Machine.execTrapS c s
  | .dbgbrk c => Sys2Proof.Machine.execDbgbrk c s
  | .tlbinvPage a b => Sys2Proof.Machine.execTlbinvPage a b s
  | .tlbinvAsid b => Sys2Proof.Machine.execTlbinvAsid b s
  | .waitaddr d a b => Sys2Proof.Machine.execWaitaddr d a b s
  | .fence sf k => Sys2Proof.Machine.execFence sf k s
  | .xfence sf f t => Sys2Proof.Machine.execXfence sf f t s
  | .vsetcfg n e b => Sys2Proof.Machine.execVsetcfg n e b s
  | .vsetvl d a g => Sys2Proof.Machine.execVsetvl d a g s
  | .psetvl d a => Sys2Proof.Machine.execPsetvl d a s
  | .reggive n => Sys2Proof.Machine.execReggive n s
  | .regclaim n => Sys2Proof.Machine.execRegclaim n s
  | .vfetch m o => Sys2Proof.Machine.execVfetch m o s
  | .vfetchReg m a => Sys2Proof.Machine.execVfetchReg m a s
  | .vcatch d => Sys2Proof.Machine.execVcatch d s
  | .abegin l p imm c => Sys2Proof.Machine.execAbegin l p imm c s
  | .thfetch m o => Sys2Proof.Machine.execThfetch m o s
  | .thfetchReg m b sf => Sys2Proof.Machine.execThfetchReg m b sf s
  | .vpstop m => Sys2Proof.Machine.execVpstop m s
  | .velect d k v => Sys2Proof.Machine.execVelect d k v s
  | .velectIdx d k => Sys2Proof.Machine.execVelectIdx d k s
  | .vballot d k w => Sys2Proof.Machine.execVballot d k w s
  | .mop d a b f sf => Sys2Proof.Machine.execMop d a b f sf s
  | .vxseed a => Sys2Proof.Machine.execVxseed a s
  | .vxtake d => Sys2Proof.Machine.execVxtake d s
  | .vaddI m d w a b => Sys2Proof.Machine.execVaddI m d w a b s
  | .vsubI m d w a b => Sys2Proof.Machine.execVsubI m d w a b s
  | .vmulI m d w a b => Sys2Proof.Machine.execVmulI m d w a b s
  | .vmacI m d w a b => Sys2Proof.Machine.execVmacI m d w a b s
  | .vminI m d w a b => Sys2Proof.Machine.execVminI m d w a b s
  | .vminIs m d w a b => Sys2Proof.Machine.execVminIs m d w a b s
  | .vmaxI m d w a b => Sys2Proof.Machine.execVmaxI m d w a b s
  | .vmaxIs m d w a b => Sys2Proof.Machine.execVmaxIs m d w a b s
  | .vand m d w a b => Sys2Proof.Machine.execVand m d w a b s
  | .vor m d w a b => Sys2Proof.Machine.execVor m d w a b s
  | .vxor m d w a b => Sys2Proof.Machine.execVxor m d w a b s
  | .vshl m d w a b => Sys2Proof.Machine.execVshl m d w a b s
  | .vshr m d w a b => Sys2Proof.Machine.execVshr m d w a b s
  | .vshrA m d w a b => Sys2Proof.Machine.execVshrA m d w a b s
  | .vcmpI m d c a b => Sys2Proof.Machine.execVcmpI m d c a b s
  | .vsel d w a b => Sys2Proof.Machine.execVsel d w a b s
  | .vaddiI m d w a imm => Sys2Proof.Machine.execVaddiI m d w a imm s
  | .vandi m d w a imm => Sys2Proof.Machine.execVandi m d w a imm s
  | .vshli m d w a imm => Sys2Proof.Machine.execVshli m d w a imm s
  | .vshri m d w a imm => Sys2Proof.Machine.execVshri m d w a imm s
  | .vshriA m d w a imm => Sys2Proof.Machine.execVshriA m d w a imm s
  | .vcmpiI m d c a imm => Sys2Proof.Machine.execVcmpiI m d c a imm s
  | .vmovi m d w imm => Sys2Proof.Machine.execVmovi m d w imm s
  | .vmov m d w a => Sys2Proof.Machine.execVmov m d w a s
  | .viota m d w => Sys2Proof.Machine.execViota m d w s
  | .vxsend m a => Sys2Proof.Machine.execVxsend m a s
  | .vperm m d w a b => Sys2Proof.Machine.execVperm m d w a b s
  | .vcompress m d a => Sys2Proof.Machine.execVcompress m d a s
  | .vred m d a c => Sys2Proof.Machine.execVred m d a c s
  | .vscan m d a c => Sys2Proof.Machine.execVscan m d a c s
  | .vnzscan m d a f => Sys2Proof.Machine.execVnzscan m d a f s
  | .bmand m d w a b => Sys2Proof.Machine.execBmand m d w a b s
  | .bmpos m d w a b => Sys2Proof.Machine.execBmpos m d w a b s
  | .vaddF32 m d w a b => Sys2Proof.Machine.execVaddF32 m d w a b s
  | .vsubF32 m d w a b => Sys2Proof.Machine.execVsubF32 m d w a b s
  | .vmulF32 m d w a b => Sys2Proof.Machine.execVmulF32 m d w a b s
  | .vfmaF32 m d w a b => Sys2Proof.Machine.execVfmaF32 m d w a b s
  | .vfmsF32 m d w a b => Sys2Proof.Machine.execVfmsF32 m d w a b s
  | .vdivF32 m d w a b => Sys2Proof.Machine.execVdivF32 m d w a b s
  | .vsqrtF32 m d w a => Sys2Proof.Machine.execVsqrtF32 m d w a s
  | .vminF32 m d w a b => Sys2Proof.Machine.execVminF32 m d w a b s
  | .vmaxF32 m d w a b => Sys2Proof.Machine.execVmaxF32 m d w a b s
  | .vcmpF32 m d c a b => Sys2Proof.Machine.execVcmpF32 m d c a b s
  | .vexp2 m d w a => Sys2Proof.Machine.execVexp2 m d w a s
  | .vrcp m d w a => Sys2Proof.Machine.execVrcp m d w a s
  | .vaddc m d w a b => Sys2Proof.Machine.execVaddc m d w a b s
  | .vaddF16 m d w a b => Sys2Proof.Machine.execVaddF16 m d w a b s
  | .vsubF16 m d w a b => Sys2Proof.Machine.execVsubF16 m d w a b s
  | .vmulF16 m d w a b => Sys2Proof.Machine.execVmulF16 m d w a b s
  | .vfmaF16 m d w a b => Sys2Proof.Machine.execVfmaF16 m d w a b s
  | .vminF16 m d w a b => Sys2Proof.Machine.execVminF16 m d w a b s
  | .vmaxF16 m d w a b => Sys2Proof.Machine.execVmaxF16 m d w a b s
  | .vcmpF16 m d c a b => Sys2Proof.Machine.execVcmpF16 m d c a b s
  | .vaddE8m7 m d w a b => Sys2Proof.Machine.execVaddE8m7 m d w a b s
  | .vsubE8m7 m d w a b => Sys2Proof.Machine.execVsubE8m7 m d w a b s
  | .vmulE8m7 m d w a b => Sys2Proof.Machine.execVmulE8m7 m d w a b s
  | .vfmaE8m7 m d w a b => Sys2Proof.Machine.execVfmaE8m7 m d w a b s
  | .vminE8m7 m d w a b => Sys2Proof.Machine.execVminE8m7 m d w a b s
  | .vmaxE8m7 m d w a b => Sys2Proof.Machine.execVmaxE8m7 m d w a b s
  | .vcmpE8m7 m d c a b => Sys2Proof.Machine.execVcmpE8m7 m d c a b s
  | .vcvt m d w a t sf => Sys2Proof.Machine.execVcvt m d w a t sf s
  | .vld m d b x k p o => Sys2Proof.Machine.execVld m d b x k p o s
  | .vst m d l b x k p o => Sys2Proof.Machine.execVst m d l b x k p o s
  | .vgath m d b x k p o => Sys2Proof.Machine.execVgath m d b x k p o s
  | .vgathC m d b x k p o => Sys2Proof.Machine.execVgathC m d b x k p o s
  | .vscat m d l b x k p o => Sys2Proof.Machine.execVscat m d l b x k p o s
  | .vamo m d b x k p o => Sys2Proof.Machine.execVamo m d b x k p o s
  | .bkred m d b x k p o => Sys2Proof.Machine.execBkred m d b x k p o s
  | .wmlink n a b e => Sys2Proof.Machine.execWmlink n a b e s
  | .wmpub a b => Sys2Proof.Machine.execWmpub a b s
  | .bcopy d sf c b p => Sys2Proof.Machine.execBcopy d sf c b p s
  | .cmdb a b => Sys2Proof.Machine.execCmdb a b s
  | .barinit a b => Sys2Proof.Machine.execBarinit a b s
  | .barrive sf a c => Sys2Proof.Machine.execBarrive sf a c s
  | .bwait a p => Sys2Proof.Machine.execBwait a p s
  | .wdq a b c => Sys2Proof.Machine.execWdq a b c s
  | .mma t a b f r e => Sys2Proof.Machine.execMma t a b f r e s
  | .mmas t a b f r e p x => Sys2Proof.Machine.execMmas t a b f r e p x s
  | .mscacc d sf g f r p z => Sys2Proof.Machine.execMscacc d sf g f r p z s
  | .mmovTileToReg t v r c => Sys2Proof.Machine.execMmovTileToReg t v r c s
  | .mmovRegToTile t v r c => Sys2Proof.Machine.execMmovRegToTile t v r c s
  | .mzero t r => Sys2Proof.Machine.execMzero t r s
  | .mzeroAll r => Sys2Proof.Machine.execMzeroAll r s
  | .msave t a p => Sys2Proof.Machine.execMsave t a p s
  | .mrest t a p => Sys2Proof.Machine.execMrest t a p s
  | .mepi sf o p l r c t u => Sys2Proof.Machine.execMepi sf o p l r c t u s
  | .spawn d a b => Sys2Proof.Machine.execSpawn d a b s
  | .vspawn m d a b => Sys2Proof.Machine.execVspawn m d a b s
  | .yieldW a => Sys2Proof.Machine.execYieldW a s
  | .contset imm => Sys2Proof.Machine.execContset imm s
  | .btopup d a b c => Sys2Proof.Machine.execBtopup d a b c s
  | .btopupZ d a => Sys2Proof.Machine.execBtopupZ d a s
  | .repf c sf l => Sys2Proof.Machine.execRepf c sf l s
  | .lanepwrWrite a => Sys2Proof.Machine.execLanepwrWrite a s
  | .trapvecWrite a => Sys2Proof.Machine.execTrapvecWrite a s
  | .tokrateWrite a => Sys2Proof.Machine.execTokrateWrite a s
  | .tokdepthWrite a => Sys2Proof.Machine.execTokdepthWrite a s
  | .fflagsAccess wr r => Sys2Proof.Machine.execFflagsAccess wr r s
  | .dbgctlWrite a => Sys2Proof.Machine.execDbgctlWrite a s
  | .quadPowerUpReady die cl q => Sys2Proof.Machine.execQuadPowerUpReady die cl q s
  | .earlyLoadSend k => Sys2Proof.Machine.execEarlyLoadSend k s
  | .threadBlockStart lane => Sys2Proof.Machine.execThreadBlockStart lane s
  | .blockComplete vp => Sys2Proof.Machine.execBlockComplete vp s
  | .entryStarvationIssue lane k => Sys2Proof.Machine.execEntryStarvationIssue lane k s
  | .queueBlockSuspend lane => Sys2Proof.Machine.execQueueBlockSuspend lane s
  | .crossElementUnblock ctl vp => Sys2Proof.Machine.execCrossElementUnblock ctl vp s
  | .refill v => Sys2Proof.Machine.execRefill v s
  | .dispatch die => Sys2Proof.Machine.execDispatch die s
  | .laneStarvation lane => Sys2Proof.Machine.execLaneStarvation lane s
  | .amoReply k => Sys2Proof.Machine.execAmoReply k s
  | .vectorLoadReply k => Sys2Proof.Machine.execVectorLoadReply k s
  | .atomicTimeout k => Sys2Proof.Machine.execAtomicTimeout k s
  | .homeBankAccess k => Sys2Proof.Machine.execHomeBankAccess k s
  | .pageWalkComplete va => Sys2Proof.Machine.execPageWalkComplete va s
  | .l1SectorExpiry die cl k => Sys2Proof.Machine.execL1SectorExpiry die cl k s
  | .bcopyComplete die cl k => Sys2Proof.Machine.execBcopyComplete die cl k s
  | .workDistributorRequest k => Sys2Proof.Machine.execWorkDistributorRequest k s
  | .wdqAnswer k => Sys2Proof.Machine.execWdqAnswer k s
  | .linkedLoadAdmit k => Sys2Proof.Machine.execLinkedLoadAdmit k s
  | .tokenBucketFill die cl asid c => Sys2Proof.Machine.execTokenBucketFill die cl asid c s
  | .eccCorrected die cl u n => Sys2Proof.Machine.execEccCorrected die cl u n s
  | .eccUncorrectable u n => Sys2Proof.Machine.execEccUncorrectable u n s
  | .errorRecordWindow die cl u => Sys2Proof.Machine.execErrorRecordWindow die cl u s
  | .debugStop die cl wid => Sys2Proof.Machine.execDebugStop die cl wid s
  | .debugResume die cl wid => Sys2Proof.Machine.execDebugResume die cl wid s
  | .debugRead die cl wid item n idx => Sys2Proof.Machine.execDebugRead die cl wid item n idx s
  | .debugWrite die cl wid item n idx x => Sys2Proof.Machine.execDebugWrite die cl wid item n idx x s
  | .haltDie die => Sys2Proof.Machine.execHaltDie die s
  | .unhaltDie die => Sys2Proof.Machine.execUnhaltDie die s
  | .explorationFlit k => Sys2Proof.Machine.execExplorationFlit k s
  | .explorationReport k => Sys2Proof.Machine.execExplorationReport k s
  | .linkErrorRetry l => Sys2Proof.Machine.execLinkErrorRetry l s
  | .linkTimeout l => Sys2Proof.Machine.execLinkTimeout l s
  | .powerGrant die => Sys2Proof.Machine.execPowerGrant die s
  | .setwin host a0 a1 a2 a3 => Sys2Proof.Machine.execSetwin host a0 a1 a2 a3 s
  | .clrwin host a0 a1 a2 a3 => Sys2Proof.Machine.execClrwin host a0 a1 a2 a3 s
  | .setinb host a0 a1 a2 a3 => Sys2Proof.Machine.execSetinb host a0 a1 a2 a3 s
  | .clrinb host a0 a1 a2 a3 => Sys2Proof.Machine.execClrinb host a0 a1 a2 a3 s
  | .qpconn host a0 a1 a2 a3 => Sys2Proof.Machine.execQpconn host a0 a1 a2 a3 s
  | .qpconnTimeout host a0 a1 a2 a3 => Sys2Proof.Machine.execQpconnTimeout host a0 a1 a2 a3 s
  | .qpclose host a0 a1 a2 a3 => Sys2Proof.Machine.execQpclose host a0 a1 a2 a3 s
  | .attest host a0 a1 a2 a3 => Sys2Proof.Machine.execAttest host a0 a1 a2 a3 s
  | .lifecycle host a0 a1 a2 a3 => Sys2Proof.Machine.execLifecycle host a0 a1 a2 a3 s
  | .setcap host a0 a1 a2 a3 => Sys2Proof.Machine.execSetcap host a0 a1 a2 a3 s
  | .provision host a0 a1 a2 a3 => Sys2Proof.Machine.execProvision host a0 a1 a2 a3 s
  | .inboundRdmaWrite m pa data => Sys2Proof.Machine.execInboundRdmaWrite m pa data s
  | .inboundRdmaRead m pa n => Sys2Proof.Machine.execInboundRdmaRead m pa n s
  | .inboundRdmaAtomic m pa cas x c => Sys2Proof.Machine.execInboundRdmaAtomic m pa cas x c s
  | .unassignedOpcode w => Sys2Proof.Machine.execUnassignedOpcode w s
  | .badcmd host c => Sys2Proof.Machine.execBadcmd host c s
  | .flashImageWrite whole version entry p => Sys2Proof.Machine.execFlashImageWrite whole version entry p s
  | .congestionNotificationPacket qp => Sys2Proof.Machine.execCongestionNotificationPacket qp s
  | .instructionFetchReply va => Sys2Proof.Machine.execInstructionFetchReply va s
  | .nop => Sys2Proof.Machine.execNop s
  | .eret => Sys2Proof.Machine.execEret s
  | .tlbinvAll => Sys2Proof.Machine.execTlbinvAll s
  | .exitW => Sys2Proof.Machine.execExitW s
  | .macq => Sys2Proof.Machine.execMacq s
  | .mrel => Sys2Proof.Machine.execMrel s
  | .vectorQueueEntryEffect => Sys2Proof.Machine.execVectorQueueEntryEffect s
  | .vfetchDispatch => Sys2Proof.Machine.execVfetchDispatch s
  | .catchFetch => Sys2Proof.Machine.execCatchFetch s
  | .resentFetch => Sys2Proof.Machine.execResentFetch s
  | .vcatchComplete => Sys2Proof.Machine.execVcatchComplete s
  | .queueDeadlockTrap => Sys2Proof.Machine.execQueueDeadlockTrap s
  | .vxtakeDeadlockTrap => Sys2Proof.Machine.execVxtakeDeadlockTrap s
  | .spillEngine => Sys2Proof.Machine.execSpillEngine s
  | .regclaimGrant => Sys2Proof.Machine.execRegclaimGrant s
  | .claimDeadlock => Sys2Proof.Machine.execClaimDeadlock s
  | .forcedEntry => Sys2Proof.Machine.execForcedEntry s
  | .graceTimerExpiry => Sys2Proof.Machine.execGraceTimerExpiry s
  | .forcedFullSave => Sys2Proof.Machine.execForcedFullSave s
  | .preemptionRequest => Sys2Proof.Machine.execPreemptionRequest s
  | .trapEntry => Sys2Proof.Machine.execTrapEntry s
  | .handlerDeferLimit => Sys2Proof.Machine.execHandlerDeferLimit s
  | .longDependence => Sys2Proof.Machine.execLongDependence s
  | .activeSetDisplace => Sys2Proof.Machine.execActiveSetDisplace s
  | .antiStarvation => Sys2Proof.Machine.execAntiStarvation s
  | .macqGrant => Sys2Proof.Machine.execMacqGrant s
  | .matrixComplete => Sys2Proof.Machine.execMatrixComplete s
  | .loadReply => Sys2Proof.Machine.execLoadReply s
  | .tlbinvComplete => Sys2Proof.Machine.execTlbinvComplete s
  | .fenceComplete => Sys2Proof.Machine.execFenceComplete s
  | .markerFire => Sys2Proof.Machine.execMarkerFire s
  | .bwaitComplete => Sys2Proof.Machine.execBwaitComplete s
  | .waitaddrComplete => Sys2Proof.Machine.execWaitaddrComplete s
  | .waitaddrPoll => Sys2Proof.Machine.execWaitaddrPoll s
  | .resetP => Sys2Proof.Machine.execResetP s
  | .explorationQuietTimeout => Sys2Proof.Machine.execExplorationQuietTimeout s
  | .wearRecordWrite => Sys2Proof.Machine.execWearRecordWrite s
  | .powerInterval => Sys2Proof.Machine.execPowerInterval s
  | .launchHeaderRead => Sys2Proof.Machine.execLaunchHeaderRead s
  | .cmdbListRead => Sys2Proof.Machine.execCmdbListRead s
  | .topupCredit => Sys2Proof.Machine.execTopupCredit s
  | .powerFailure => Sys2Proof.Machine.execPowerFailure s

end Sys2Proof.Machine
end

