-- ==== Sys2Proof/Machine/Agenda.lean ====
section
/-! DEFINITION. What steps: the control thread of a wave, a lane of a wave, a row without encoding; and which of them comes next where
the agenda names none (R25, R31, R39, R43, R132, R206, R208, R236, R256, R257, R285; log entries 1 and 5). -/

namespace Sys2Proof.Machine

/-! ### The control thread -/

/-- Whether the focused wave's control thread may step: its die runs, it is resident and in the active set (R206), the debugger has
not stopped it, it does not leave, no save has faulted, and no implicit MACQ is outstanding (R213). -/
def controlReady (s : State) : Bool :=
  onDuty s && s.w.active && !s.w.frozen && !s.w.saveFault && !s.w.leaving && s.w.doubleCause.isNone && !s.w.wantsMat

/-- What is taken at the control thread's boundary before the next instruction (R132, R136, R236): a trap, then a pre-emption
request or exhaustion, then the save of an expired grace timer. -/
def boundaryEvent (s : State) : Option Instr :=
  if trapDue s then some .trapEntry
  else if entryDue s then some .forcedEntry
  else if graceDue s then some .forcedFullSave
  else none

/-- Whether an address is the breakpoint (R256, R257). -/
def Wave.atBaddr (w : Wave) (a : U64) : Bool := w.dbg.ena && w.dbg.baddr != 0 && decide (w.dbg.baddr.toNat * 4 = a.toNat)

/-- A control thread that goes on past a stop at the breakpoint, once its instruction has issued. -/
def passed (t : State) : State :=
  match t.w.wait with
  | some (.stall _) => t
  | _ => if t.w.dbg.pass then t.mapW (fun w => { w with dbg := { w.dbg with pass := false } }) else t

/-- STEP (R256): a completed control-thread instruction of the same wave stops it. -/
def stepStop (id : Nat) (t : State) : State :=
  if t.w.id = id ∧ t.w.dbg.ena ∧ t.w.dbg.single ∧ t.w.wait.isNone ∧ t.w.isResident then stopWave t else t

/-- What follows an instruction of the control thread of a wave: the breakpoint is behind it, its walks are used up (R166), and STEP. -/
def afterControl (id : Nat) (o : Out) : Out :=
  match o with
  | .next t => .next (stepStop id (if t.w.id = id then settleWalks 0 (passed t) else t))
  | x => x

/-- The control thread stopped at the breakpoint, which it passes when it goes on (R257). -/
def stopAtBreak (s : State) : State := (stopWave s).mapW (fun w => { w with dbg := { w.dbg with pass := true } })

/-- The next instruction of the control thread: the breakpoint, the fetch with its waits and faults, and the instruction (R153, R206). -/
def fetchStep (s : State) : Out :=
  if s.w.atBaddr s.w.pc && !s.w.dbg.pass then .next (stopAtBreak s)
  else
    match awaitFetch 0 none [s.w.pc] s with
    | some t => .next (stalled .fetch t)
    | none =>
      afterControl s.w.id
        (match fetchWord s s.w.pc with
         | .error c => .next (trapHere s c)
         | .ok w => exec (instrOfWord w) s)

/-- One step of the focused wave's control thread. -/
def controlStep (s : State) : Out :=
  if !controlReady s then .refused (.notEnabled "CONTROL")
  else
    match boundaryEvent s with
    | some i => exec i s
    | none =>
      match s.w.wait with
      | some (.issued i _) => afterControl s.w.id (exec i s)
      | _ => fetchStep s

/-! ### Lanes -/

/-- Whether the focused wave's lanes may issue: it is in the active set (R206), not in handler mode (R239), not stopped by the debugger, not
saved with a fault, with no implicit MACQ outstanding (R213). -/
def lanesReady (s : State) : Bool :=
  onDuty s && s.w.active && !s.w.trp.inh && !s.w.frozen && !s.w.saveFault && s.w.doubleCause.isNone && !s.w.wantsMat

/-- The VPs that a lane issues together with the VP that it serves (R16, R39, R40, R43): all of its run for a cross-element
instruction and for VSPAWN, it alone in thread mode and at a cross-element queue, otherwise a packed group of its lane at the same word. -/
def issueGroup (w : Wave) (j : Nat) (v : Nat) (r : Run) (pos rep : Nat) : List Nat :=
  let word := wordAt r.words pos rep
  if isCross (opOf word) || opOf word == 0xC1 then (w.runVps r.id).map Prod.fst
  else if r.kind.isThread || namesXin word || opOf word == 0x69 then [v]
  else
    ((w.runVps r.id).filter (fun e => w.laneOf e.1 == j && w.canStep e &&
      (match e.2 with | .run _ p q _ _ => decide (p = pos ∧ q = rep) | _ => false))).map Prod.fst |>.take (w.pack r.kind)

/-- A breakpoint reached by VPs of a lane (R257): a wave-stop, or under MODE = 1 those VPs stop, and the latches that they hold are invalid
(R44, R87); they pass it when they go on. -/
def laneBreak (s : State) (vps : List Nat) : State :=
  let s1 := if s.w.dbg.laneMode then s.mapW (fun w => { w with latches := vps.foldl lkDel w.latches, dbg := { w.dbg with vps := w.dbg.vps ++ vps } })
    else stopWave s
  s1.mapW (fun w => { w with dbg := { w.dbg with passVps := w.dbg.passVps ++ vps } })

/-- The machine after an issue step: its agent back in the control thread, the lane's walks used up (R166), the breakpoint behind its VPs where the
step was taken. -/
def endLane (waiter : Nat) (vps : List Nat) (before : Wave) (t : State) : State :=
  let t1 := settleWalks waiter { t with agent := .control }
  t1.mapW (fun w => { w with dbg := { w.dbg with passVps := w.dbg.passVps.filter (fun v => !(vps.contains v && w.vp v != before.vp v)) } })

/-- One issue step of a lane for a group of VPs of a run. -/
def issueStep (s : State) (r : Run) (pos rep : Nat) (vps : List Nat) : Out :=
  let hit := if s.w.atBaddr (r.addr + 4 * (BitVec.ofNat 64 (pos + 1))) then vps.filter (fun v => !s.w.dbg.passVps.contains v) else []
  if vps.any s.w.dbg.vps.contains then .refused (.notEnabled "LANE")
  else if !hit.isEmpty then .next (laneBreak s hit)
  else
    match exec (instrOfWord (wordAt r.words pos rep)) { s with agent := .lane r.id vps } with
    | .next t => .next (endLane (2 + s.w.laneOf (vps.headD 0)) vps s.w t)
    | x => x

/-- Whether a lane of the focused wave may take a step: the wave's lanes issue, no other wave is inside a block there (R44), and no VP of
the lane stands at the end of its block, which it leaves first (R32). -/
def laneMay (s : State) (j : Nat) : Bool := lanesReady s && !laneTaken s j && !s.w.ending.any (fun v => s.w.laneOf v == j)

/-- One step of a lane of the focused wave. -/
def laneStep (s : State) (j : Nat) : Out :=
  if !laneMay s j then .refused (.notEnabled "LANE")
  else
    match s.w.nextVp j with
    | some (v, .run id pos rep _ _) =>
      (match s.w.run? id with
       | some r => issueStep s r pos rep (issueGroup s.w j v r pos rep)
       | none => .refused (.notEnabled "LANE"))
    | _ => .refused (.notEnabled "LANE")

/-! ### Choices -/

/-- What a choice does on the focused wave; an instruction that has an encoding runs only by being fetched. -/
def runAct (s : State) (a : Act) : Out :=
  match a with
  | .control => controlStep s
  | .lane j => laneStep s j
  | .event i => if (encode i).isSome then .refused (.notEnabled "EVENT") else exec i s

/-- A choice carried out: its wave is focused first. -/
def runChoice (s : State) (c : Choice) : Out :=
  let s1 := s.focus c.wave
  if s1.w.id = c.wave then runAct s1 c.act else .refused (.notEnabled "WAVE")

/-- The row of a management command (R281). -/
def commandRow (h : BitVec 1) (code a0 a1 a2 a3 : U64) : Instr :=
  match code.toNat with
  | 1 => .setwin h a0 a1 a2 a3
  | 2 => .clrwin h a0 a1 a2 a3
  | 3 => .setinb h a0 a1 a2 a3
  | 4 => .clrinb h a0 a1 a2 a3
  | 5 => .qpconn h a0 a1 a2 a3
  | 6 => .qpclose h a0 a1 a2 a3
  | 7 => .attest h a0 a1 a2 a3
  | 8 => .lifecycle h a0 a1 a2 a3
  | 9 => .setcap h a0 a1 a2 a3
  | 10 => .provision h a0 a1 a2 a3
  | _ => .badcmd h ⟨code, a0, a1, a2, a3⟩

/-- The management commands that may go on: the oldest taken one, and the one that stands in the mailbox. -/
def commandActs (s : State) : List Instr :=
  let d (off : Nat) : U64 := mailD s off
  (s.pkg.cmds.take 1).map (fun c => commandRow (if c.host then 1 else 0) c.code c.a0 c.a1 c.a2 c.a3) ++
    [commandRow 0 (d 0x008) (d 0x010) (d 0x018) (d 0x020) (d 0x028)]

/-- What the package does by itself, apart from its waves. -/
def packageActs (s : State) : List Instr :=
  (List.range s.ndie).map (fun d => .dispatch (BitVec.ofNat 4 d)) ++
  s.clusters.flatMap (fun e => (List.range (min 64 e.2.bulk.length)).map (fun k =>
    .bcopyComplete (BitVec.ofNat 4 (e.1 / 64)) (BitVec.ofNat 6 e.1) (BitVec.ofNat 6 k))) ++
  (List.range (min 4096 s.wdq.length)).flatMap (fun k => [.workDistributorRequest (BitVec.ofNat 12 k), .wdqAnswer (BitVec.ofNat 12 k)]) ++
  s.pkg.inbound.map (fun m => .inboundRdmaWrite ⟨BitVec.ofNat 13 m.qp, 1, 0, 0⟩ 0 []) ++ commandActs s ++
  [.explorationFlit 0, .explorationReport 0, .explorationQuietTimeout] ++
  (if s.pkg.service = .explored then [.resetP] else [])

/-- What a wave does by itself, beside its control thread and its lanes. -/
def waveActs (s : State) : List Instr :=
  [.trapEntry, .preemptionRequest, .forcedEntry, .forcedFullSave, .activeSetDisplace, .vectorQueueEntryEffect, .vfetchDispatch,
   .catchFetch, .resentFetch, .vcatchComplete, .loadReply, .launchHeaderRead, .cmdbListRead, .topupCredit, .tlbinvComplete,
   .fenceComplete, .markerFire, .bwaitComplete, .waitaddrComplete, .macqGrant, .matrixComplete, .regclaimGrant,
   .crossElementUnblock 1 0, .spillEngine, .queueDeadlockTrap, .vxtakeDeadlockTrap, .claimDeadlock] ++
  (List.range (min 64 s.w.reqs.length)).map (fun k => .homeBankAccess (BitVec.ofNat 13 k)) ++
  (List.range (min 64 s.w.replies.length)).map (fun k => .amoReply (BitVec.ofNat 13 k)) ++
  (s.myCluster.openMisses.filter (fun m => m.asid == s.w.asid)).map (fun m => .pageWalkComplete (BitVec.ofNat 60 (m.region * 2 ^ 19))) ++
  (s.myCluster.fmiss.filter (fun x => x.wave == s.w.id)).map (fun x => .instructionFetchReply (BitVec.ofNat 60 (32 * x.sector))) ++
  (List.range (min 8192 s.w.vland.length)).flatMap (fun k => [.vectorLoadReply (BitVec.ofNat 13 k), .linkedLoadAdmit (BitVec.ofNat 13 k)]) ++
  (s.w.vps.flatMap (fun e => [.blockComplete (BitVec.ofNat 13 e.1), .crossElementUnblock 0 (BitVec.ofNat 13 e.1)])) ++
  (List.range 16).flatMap (fun j => [.threadBlockStart (BitVec.ofNat 4 j), .queueBlockSuspend (BitVec.ofNat 4 j)]) ++
  s.w.want.map (fun v => .refill (BitVec.ofNat 7 v))

/-- Everything that may come next, from the focused wave on. -/
def candidates (s : State) : List Choice :=
  (s.waves.flatMap (fun w =>
    ({ wave := w.id, act := .control } : Choice) :: (List.range 16).map (fun j => { wave := w.id, act := .lane j }) ++
      (waveActs (s.focus w.id)).map (fun i => { wave := w.id, act := .event i }))) ++
  (packageActs s).map (fun i => { wave := s.w.id, act := .event i })

/-- The first of a list of choices that changes the machine. -/
def firstChange (s : State) : List Choice → Option Out
  | [] => none
  | c :: t =>
    match runChoice s c with
    | .next t' => if t' = s.focus c.wave then firstChange s t else some (.next t')
    | .fault f => some (.fault f)
    | .refused _ => firstChange s t

/-- What steps where the agenda is empty: the candidates are tried in turn, from a place that moves on with every step; with none
the machine idles (log entry 5). -/
def byItself (s : State) : Out :=
  let l := candidates s
  let k := s.free % l.length
  (firstChange s (l.drop k ++ l.take k)).getD (.next s)

end Sys2Proof.Machine
end

