-- ==== Sys2Proof/Machine/Step.lean ====
section
/-! DEFINITION. One step of the machine, and a machine about to fetch one given word (log entries 1 and 5). -/

namespace Sys2Proof.Machine

/-- The machine with its free-value counter moved on, so that every step finds fresh free values. -/
def State.tick (s : State) : State := { s with free := s.free + 1 }

/-- One step: the agenda's first choice, or where the agenda is empty what the machine does by itself. -/
def step (s : State) : Host.Outcome State Fault Refusal :=
  match s.agenda with
  | c :: t => runChoice { s.tick with agenda := t } c
  | [] => byItself s.tick

/-- Whether a word is executed by lanes, as a word of a block (R31). -/
def isBlockWord (w : BitVec 32) : Bool :=
  decide (opOf w = 0x48 ∨ opOf w = 0x49 ∨ (0x50 ≤ opOf w ∧ opOf w ≤ 0x8C) ∨ opOf w = 0xC1 ∨ opOf w = 0xC5)

/-- The physical and virtual address at which `withFetchWord` puts its word. -/
def fetchPlace : Nat := 0x100000

/-- Page tables at 0x20_0000 that map the first 512 MiB onto themselves for every use, and the entry of ASID 0 (R160, R161). -/
def identityMap (m : List Host.Cell) : List Host.Cell :=
  Memory.writeN (Memory.writeN (Memory.writeN (Memory.writeN m 0 8 0x200001) 0x200000 8 0x204001) 0x204000 8 0x206001) 0x206000 8 0x3F

/-- A supervisor wave of role ALL on cluster 0 of die 0, one lane, NREG 32, EW 32 and VL 16, in the active set. -/
def fetchWave : Wave :=
  { id := 1, place := .resident 0 0, active := true, team := 1, sup := true, placed := true, pc := BitVec.ofNat 64 fetchPlace
    cfg := { nreg := 32, nregc := 2, ewc := 2, share := 2, maxvl := 128, vl := 16, quota := 64, qmax := 64 }
    bud := { ibgt := 0x10000000000, mbgt := 0x10000000000 } }

/-- The same wave with a block of one word in lockstep on its VPs. -/
def blockWave (w : BitVec 32) : Wave := fetchWave.startRun .lockstep 0x200 0x47040000 [w] (List.range 16) (reservation [w] 16)

/-- Its cluster, with the translation and the word in its caches, so that nothing waits. -/
def fetchCluster (w : BitVec 32) : Cluster :=
  { tlb := [⟨0, 0, 29, 0x3F⟩], icache := [(fetchPlace, w)] }

/-- The machine with a word stored where its next step fetches: in service, with the wave above focused and its control thread, or
for a word of a block its lane, next on the agenda (log entry 1). -/
def State.withFetchWord (s : State) (nbits w : Nat) : State :=
  let word : BitVec 32 := BitVec.ofNat 32 (w % 2 ^ nbits)
  { s with
    w := if isBlockWord word then blockWave word else fetchWave
    agent := .control
    agenda := { wave := 1, act := if isBlockWord word then .lane 0 else .control } :: s.agenda
    mem := Memory.writeN (identityMap s.mem) fetchPlace 4 word.toNat
    poison := []
    clusters := spSet {} s.clusters 0 (fetchCluster word)
    dies := spSet {} s.dies 0 { trapvec := BitVec.ofNat 58 (fetchPlace / 4) }
    teams := spSet {} s.teams 1 { cl := some 0, size := 1, kib := 1, base := 0x400000, sup := true, left := 1, placed := true }
    nextWave := max s.nextWave 2
    nextTeam := max s.nextTeam 2
    pkg := { s.pkg with service := .running } }

end Sys2Proof.Machine
end

