-- ==== Sys2Proof/Safety.lean ====
section
/-! DEFINITION. The terms in which statements are made: when an instruction issues normally, what it is charged, what a run leaves
alone, and the values that the spec gives in its own words. -/

namespace Sys2Proof.Spec

open Sys2Proof.Machine

/-! ### What is left alone -/

/-- Every byte of package memory reads as before. -/
def SameBytes (s t : State) : Prop := ∀ a, Memory.read t.mem a = Memory.read s.mem a

/-- Every scalar register reads as before but one, which reads as a value; s0 reads zero whatever is written to it (R25). -/
def Writes (s t : State) (d : BitVec 5) (v : U64) : Prop := ∀ r, t.w.gs r = if r = d ∧ d ≠ 0 then v else s.w.gs r

/-- Only the focused wave's scalar registers, PC, budgets and wait may differ. -/
def OnlyScalars (s t : State) : Prop :=
  t = { s with w := { s.w with s := t.w.s, pc := t.w.pc, bud := t.w.bud, wait := t.w.wait } } ∧ SameBytes s t

/-- Only the focused wave's scalar registers and what `v` says of its vector configuration, PC, budgets and wait may differ. -/
def OnlyScalarsAnd (s t : State) (f : Wave → Wave) : Prop :=
  t = { s with w := { f s.w with s := t.w.s, pc := t.w.pc, bud := t.w.bud, wait := t.w.wait } } ∧ SameBytes s t

/-- Only the vector instruction queue, with one entry more, PC, budgets and wait of the focused wave differ, and clusters. -/
def OnlyQueues (s t : State) (e : QEntry) : Prop :=
  t = { s with w := { s.w with vq := s.w.vq ++ [e], pc := t.w.pc, bud := t.w.bud, wait := t.w.wait }, clusters := t.clusters } ∧ SameBytes s t

/-- Sectors that an access booked in its tenant's bucket of a class are exchanged for those that it takes, where the tenant's rate is limited
and the two differ (R191); every other part of every cluster stays. -/
def Exchanges (s t : State) (k booked taken : Nat) : Prop :=
  (booked = taken → t.clusters = s.clusters) ∧
  (spWf ({} : Cluster) 0 s.clusters = true →
    ((s.myCluster.rate.entry s.w.asid).at k = 0xFFFF → t.clusters = s.clusters) ∧
    (spWf (0 : Int) 0 s.myCluster.tokens = true → (s.myCluster.rate.entry s.w.asid).at k ≠ 0xFFFF →
      ∀ b, spGet (0 : Int) t.myCluster.tokens b =
        spGet (0 : Int) s.myCluster.tokens b + (if b = tokKey s.w.asid k then (booked : Int) - (taken : Int) else 0)) ∧
    t.myCluster = { s.myCluster with tokens := t.myCluster.tokens } ∧
    ∀ d c, clKey d c ≠ clKey s.w.die s.w.cl → t.cluster d c = s.cluster d c)

/-- What an access takes from its cluster: tokens of its class (R191). -/
def OnlyTokens (s t : State) (k n : Nat) : Prop := Exchanges s t k 0 n

/-- What an instruction of a class that enters the queue takes for its bound (R191); one without a class takes nothing. -/
def Books (s t : State) (cls : Option Nat) (n : Nat) : Prop :=
  (cls = none → t.clusters = s.clusters) ∧ ∀ k, cls = some k → OnlyTokens s t k n

/-! ### Issue (R286, checks 1 to 6; R127, R210, R237, R239) -/

/-- No access of a list of addresses misses the cluster's TLB, or its walk has been delivered (R164, R166). -/
def Translated (s : State) (vas : List Nat) : Prop := ∀ va ∈ vas, misses s va = false

/-- An instruction of the control thread issues: no check of R286 before the operands fails, no fence stands before it (R178), its scalar
registers are delivered (R473), the vector queue and the bulk engine have a place (R38, R336), its class has a token (R191), its charge fits
the budgets or is waived (R128, R239), and the words and translations that it needs are there (R166, R206). -/
def Issues (i : Instr) (g : Gate) (s : State) : Prop :=
  s.agent = .control ∧ s.w.wait = none ∧ reservedCode i = false ∧
  (s.w.trp.inh = true → g.queue = false ∧ g.noHandler = false) ∧
  s.w.hdr.role s.w.member ∈ g.roles ∧ g.privBad = false ∧
  (g.own = true → s.myCluster.owner = some s.w.id) ∧
  (∀ r ∈ g.deps, s.w.outstanding r = false) ∧
  (g.queue = true → s.w.queued < 32) ∧
  (∀ c, g.cls = some c → g.sectors = 0 ∨ s.myCluster.hasToken s.w.asid c = true) ∧
  (s.w.trp.inh = true ∨ (s.w.fitsT g.ticks = true ∧ s.w.fitsS g.sectors = true)) ∧
  (s.w.fence.isSome = true → g.touches = false ∧ (s.w.trp.inh = true ∨ s.w.ctl.incont = true)) ∧ g.full = false ∧ g.await s = none ∧
  Translated s g.vas

/-- The instruction has been issued and waits, in a phase of its own. -/
def Waits (i : Instr) (phase : Nat) (s : State) : Prop := s.agent = .control ∧ s.w.wait = some (.issued i phase)

/-- The budgets after a charge: deducted, or untouched in handler mode (R125, R239). -/
def Charged (s t : State) (ticks sectors : Nat) : Prop :=
  t.w.bud = if s.w.trp.inh then s.w.bud
            else { s.w.bud with ibgt := s.w.bud.ibgt - BitVec.ofNat 64 ticks, mbgt := s.w.bud.mbgt - BitVec.ofNat 64 sectors }

/-- A scalar operation completes with a value for a register: 1 tick, the next instruction, nothing else changed (R324). -/
def ScalarResult (i : Instr) (d : BitVec 5) (v : U64) (s : State) : Prop :=
  ∃ t, exec i s = .next t ∧ Writes s t d v ∧ t.w.pc = s.w.pc + 4 ∧ t.w.wait = none ∧ Charged s t 1 0 ∧ OnlyScalars s t

/-- A control transfer completes at an address and changes no register. -/
def GoesTo (i : Instr) (a : U64) (s : State) : Prop :=
  ∃ t, exec i s = .next t ∧ t.w.pc = a ∧ t.w.wait = none ∧ t.w.s = s.w.s ∧ Charged s t 1 0 ∧ OnlyScalars s t

/-- The instruction enters the vector instruction queue with its operands read at issue, and the next instruction follows (R36); `cls` is its
traffic class (R191). -/
def EntersQueue (i : Instr) (word : BitVec 32) (ticks sectors : Nat) (x y z : U64) (s : State) (cls : Option Nat := none) : Prop :=
  ∃ t, exec i s = .next t ∧ t.w.pc = s.w.pc + 4 ∧ t.w.wait = none ∧ Charged s t ticks sectors ∧ Books s t cls sectors ∧
    OnlyQueues s t { word := word, pc := s.w.pc, x := x, y := y, z := z, rsvT := ticks, rsvS := sectors }

/-- The instruction waits at its own address with nothing changed. -/
def KeepsWaiting (i : Instr) (s : State) : Prop := exec i s = .next s

/-! ### Taking an exception (R236, R237) -/

/-- Trap entry with a handler: EPC, ECAUSE and EVAL are written, the wave is a supervisor in handler mode at the handler, and what
waited is dropped. -/
def TakesTrap (s t : State) (src : Nat) (cause : BitVec 8) (vp iw : Nat) (val epc : U64) : Prop :=
  t.w.pc = BitVec.ofNat 64 ((s.die s.w.die).trapvec.toNat * 4) ∧ t.w.sup = true ∧ t.w.wait = none ∧ t.w.latches = [] ∧
  t.w.trp.epc = BitVec.ofNat 58 (epc.toNat / 4) ∧ t.w.trp.inh = true ∧ t.w.trp.ppriv = s.w.sup ∧ t.w.trp.rskip = false ∧
  t.w.trp.src = BitVec.ofNat 2 src ∧ t.w.trp.cause = cause ∧ t.w.trp.vp = BitVec.ofNat 14 vp ∧ t.w.trp.iw = BitVec.ofNat 7 iw ∧
  t.w.trp.eval = val

/-- The focused wave is outside handler mode and its die has a handler (R234, R237). -/
def CanTrap (s : State) : Prop := s.w.trp.inh = false ∧ (s.die s.w.die).trapvec ≠ 0

/-- What the taking of a trap leaves alone: memory, the scalar registers, and every part of the machine but the wave's trap registers,
PC, privilege, wait, latches, parts of loads not yet sent, and what the completion of blocks at their end changes (R32), which may give back
a register for which elements are on their way. -/
def TrapLeaves (s t : State) : Prop :=
  SameBytes s t ∧ t.w.s = s.w.s ∧
  t = { s with w := { s.w with
    pc := t.w.pc, sup := t.w.sup, trp := t.w.trp, wait := t.w.wait, latches := t.w.latches, vland := t.w.vland, traps := t.w.traps
    reqs := t.w.reqs, replies := t.w.replies
    bud := { s.w.bud with ibgt := t.w.bud.ibgt, mbgt := t.w.bud.mbgt }
    vps := t.w.vps, runs := t.w.runs, frontier := t.w.frontier, serialVp := t.w.serialVp
    ctl := { s.w.ctl with serial := t.w.ctl.serial }, masks := t.w.masks, vregs := t.w.vregs } }

/-- Where the control thread goes on after an event taken at its boundary: at its instruction, or, past a fence in its ordering wait, at the
next one (R132, R178). -/
def interruptedAt (w : Wave) : U64 :=
  match w.wait with
  | some (.issued i p) => if isFence i = true ∧ p = 1 then w.pc + 4 else w.pc
  | _ => w.pc

/-- A VP takes part in the flush of a run: it is in it, or it has completed it and waits since (R143). -/
def InFlush (w : Wave) (r : Run) (v : Nat) : Prop :=
  (∃ e ∈ w.runVps r.id, e.1 = v) ∨
  v ∈ r.vps ∧ (w.vp v = none ∨ (∃ a, w.vp v = some (.thread a)) ∨ ∃ a, w.vp v = some (.parked a))

/-- No VP stands at the end of its block, so that no block completes. -/
def NoneEnding (s : State) : Prop := ∀ e ∈ s.w.vps, s.w.atEnd e.1 = false

/-- A trap of the instruction itself at its checks: SRC 0, EPC at the instruction, no charge and no other effect (R236, R286). -/
def TrapsAt (i : Instr) (cause : BitVec 8) (val : U64) (s : State) : Prop :=
  ∃ t, exec i s = .next t ∧ TakesTrap s t 0 cause 0 0 val s.w.pc ∧ TrapLeaves s t ∧ (NoneEnding s → t.w.bud = s.w.bud)

/-- The control thread stands at a new instruction, for which nothing but a trap of its checks matters. -/
def AtInstruction (s : State) : Prop := s.agent = .control ∧ s.w.wait = none

/-- A VLD, VST or VAMO of the control thread uses its last-use bit for an index register only where it names one: at xr below 32 the
bit is an unused field (R286, R303). -/
def IndexNamed : Instr → Prop
  | .vld _ _ _ x k _ _ => k = 0 ∨ 32 ≤ x.toNat
  | .vst _ _ _ _ x k _ _ => k = 0 ∨ 32 ≤ x.toNat
  | .vamo _ _ _ x k _ _ => k = 0 ∨ 32 ≤ x.toNat
  | _ => True

/-! ### Integer values in the spec's words -/

/-- Signed division (R108): all ones for a divisor 0, otherwise rounded toward zero, with -2^63 ÷ -1 = -2^63. -/
def sdiv (x y : U64) : U64 := if y = 0 then BitVec.allOnes 64 else x.sdiv y

/-- Signed remainder (R108): the dividend for a divisor 0, otherwise with the dividend's sign. -/
def srem (x y : U64) : U64 := if y = 0 then x else x.srem y

/-- `n` is the number of leading zero bits of a value (R349). -/
def IsLeadingZeros (x : U64) (n : Nat) : Prop :=
  (x = 0 → n = 64) ∧ (x ≠ 0 → n ≤ 63 ∧ x.toNat < 2 ^ (64 - n) ∧ 2 ^ (63 - n) ≤ x.toNat)

/-- The number of bits of a value that are 1 (R374). -/
def ones (x : U64) : Nat := ((List.range 64).filter (fun k => x.getLsbD k)).length

/-- The target of a branch: the PC plus 4 times a signed offset, modulo 2^60 (R285). -/
def target (pc : U64) (o : Int) : U64 := BitVec.ofNat 64 (((pc.toNat : Int) + 4 * o) % 2 ^ 60).toNat

/-- The condition of BC on two scalars (R294). -/
def Condition (c : BitVec 3) (x y : U64) : Prop :=
  (c = 0 → x = y) ∧ (c = 1 → x ≠ y) ∧ (c = 2 → x.toNat < y.toNat) ∧ (c = 3 → y.toNat ≤ x.toNat) ∧
  (c = 4 → x.toInt < y.toInt) ∧ (c = 5 → y.toInt ≤ x.toInt) ∧ (c = 6 → x &&& y ≠ 0)

/-- No entry of the vector queue and no fetch ahead of it may take effect: none is there, or a continuation holds back all that are (R37,
R135). -/
def QueueEmpty (s : State) : Prop :=
  (∀ e ∈ s.w.vq, s.w.heldBack = true ∧ e.before = true) ∧ ∀ f ∈ s.w.fetches, s.w.heldBack = true ∧ f.before = true

/-- Every earlier entry of the vector queue has taken effect and the wave is quiescent (R50). -/
def Settled (s : State) : Prop := QueueEmpty s ∧ s.w.quiescent = true

/-- The vector queue holds the same entries, but for what the load buffers of its loads hold (R154). -/
def SameQueue (s t : State) : Prop := t.w.vq.map (fun e => { e with early := none }) = s.w.vq.map (fun e => { e with early := none })

/-- What the wave has on its way is the same, but for the registers where it lands. -/
def SameInFlight (s t : State) : Prop :=
  t.w.vland.map (fun l => { l with dst := .none }) = s.w.vland.map (fun l => { l with dst := .none }) ∧
  t.w.reqs.map (fun q => { q with dst := .none }) = s.w.reqs.map (fun q => { q with dst := .none }) ∧
  t.w.replies.map (fun q => { q with dst := .none }) = s.w.replies.map (fun q => { q with dst := .none })

/-- No link of the package has failed, so that no packet is held (R262). -/
def LinksUp (s : State) : Prop := s.pkg.failedLinks = []

/-! ### Control registers (R4, R321) -/

/-- A register value made of fields, each given with the place of its lowest bit. -/
def fields (l : List (Nat × Nat)) : U64 := BitVec.ofNat 64 (l.foldl (fun x f => x + f.2 * 2 ^ f.1) 0)

/-- A flag as a field. -/
def flag (b : Bool) : Nat := if b then 1 else 0

/-- A control register is read: 2 ticks, its value in the destination, nothing else changed (R353). -/
def ReadsRegister (i : Instr) (d : BitVec 5) (v : State → U64) (s : State) : Prop :=
  ∃ t, exec i s = .next t ∧ Writes s t d (v { s with w := { s.w with bud := t.w.bud } }) ∧ t.w.pc = s.w.pc + 4 ∧ t.w.wait = none ∧
    Charged s t 2 0 ∧ OnlyScalars s t

/-- A control register of the wave is written: 2 ticks, the fields that `f` gives, nothing else changed (R353). -/
def WritesRegister (i : Instr) (f : Wave → Wave) (s : State) : Prop :=
  ∃ t, exec i s = .next t ∧ t.w.pc = s.w.pc + 4 ∧ t.w.wait = none ∧ t.w.s = s.w.s ∧ Charged s t 2 0 ∧ OnlyScalarsAnd s t f

/-- A control register of the cluster or the die is written: 2 ticks, and of the wave only PC and budgets change. -/
def WritesShared (i : Instr) (p : State → Prop) (s : State) : Prop :=
  ∃ t, exec i s = .next t ∧ t.w.pc = s.w.pc + 4 ∧ Charged s t 2 0 ∧ SameBytes s t ∧ p t ∧
    t = { s with w := { s.w with pc := t.w.pc, bud := t.w.bud, wait := none }, clusters := t.clusters, dies := t.dies }

/-- A value is refused after the charge: ILLOP at the instruction, and no register written (R5, R286). -/
def RefusesValue (i : Instr) (ticks : Nat) (s : State) : Prop :=
  ∃ t, exec i s = .next t ∧ TakesTrap s t 0 0x01 0 0 s.w.pc s.w.pc ∧ TrapLeaves s t ∧ (NoneEnding s → Charged s t ticks 0)

/-- An access of the control thread is made: 1 tick and its sectors, the next instruction; `f` says what the wave has in flight then,
and the scalar registers and memory stay as they are until it is performed (R168, R170); loads sent early may have to be read again
(R154). -/
def Sends (i : Instr) (sectors : Nat) (f : Wave → Wave) (s : State) : Prop :=
  ∃ t, exec i s = .next t ∧ t.w.pc = s.w.pc + 4 ∧ t.w.wait = none ∧ Charged s t 1 sectors ∧ SameBytes s t ∧ OnlyTokens s t 2 sectors ∧
    SameQueue s t ∧
    t = { s with w := { f s.w with pc := t.w.pc, bud := t.w.bud, wait := none, vq := t.w.vq }, clusters := t.clusters, sseq := s.sseq + 1 }

/-- An access of the control thread faults at its address, with the charge made (R127, R236, R286): no other effect. -/
def FaultsAt (i : Instr) (sectors : Nat) (cause : BitVec 8) (val : U64) (s : State) : Prop :=
  ∃ t, exec i s = .next t ∧ TakesTrap s t 0 cause 0 0 val s.w.pc ∧ TrapLeaves s t ∧ (NoneEnding s → Charged s t 1 sectors)

/-- Nothing that the wave has sent is still on its way, on whatever cluster it was sent, and no answer of the work distributor (R168). -/
def NothingOpen (s : State) : Prop :=
  s.w.loads = [] ∧ s.w.vland = [] ∧ s.w.reqs = [] ∧ s.w.mat = [] ∧ (∀ e ∈ s.clusters, ∀ b ∈ e.2.bulk, b.wave ≠ s.w.id) ∧
  ∀ q ∈ s.wdq, q.wave ≠ s.w.id

/-- A wait or a fence of the control thread completes: its ticks, the next instruction, and of the machine outside the wave only what
clusters hold as copies; loads sent early may have to be read again (R175). -/
def Completes (i : Instr) (ticks : Nat) (p : State → Prop) (s : State) : Prop :=
  ∃ t, exec i s = .next t ∧ t.w.pc = s.w.pc + 4 ∧ t.w.wait = none ∧ Charged s t ticks 0 ∧ SameBytes s t ∧ p t ∧ SameQueue s t ∧
    t = { s with w := { s.w with s := t.w.s, pc := t.w.pc, bud := t.w.bud, wait := none, vq := t.w.vq }, clusters := t.clusters }

/-- An instruction that has been issued waits at its address, charged once, with nothing else changed. -/
def StartsWaiting (i : Instr) (ticks phase : Nat) (s : State) : Prop :=
  ∃ t, exec i s = .next t ∧ t.w.wait = some (.issued i phase) ∧ t.w.pc = s.w.pc ∧ t.w.s = s.w.s ∧ Charged s t ticks 0 ∧ OnlyScalars s t

/-- The tables of clusters, dies and teams and package memory in their canonical form: keys rising, nothing listed that reads as
unlisted. -/
def Canonical (s : State) : Prop :=
  spWf ({} : Cluster) 0 s.clusters = true ∧ spWf ({} : Die) 0 s.dies = true ∧ spWf ({} : Team) 0 s.teams = true ∧
  Memory.wf s.mem = true

/-! ### The vector instruction queue (R36 to R38, R85, R93, R129, R222, R236, R253) -/

/-- Only the focused wave differs. -/
def OnlyWave (s t : State) : Prop := t = { s with w := t.w } ∧ SameBytes s t

/-- An agent of the focused wave has no walk outstanding or delivered (R166): 0 is the control thread, 1 the queue, 2 + j lane j. -/
def NoWalk (s : State) (agent : Nat) : Prop := ∀ m ∈ s.myCluster.misses, (s.w.id, agent) ∉ m.waiters

/-- No walk that an agent of the focused wave waited for has ended and is still to be used (R166). -/
def NoneDelivered (s : State) (agent : Nat) : Prop := ∀ m ∈ s.myCluster.misses, m.done.isSome = true → (s.w.id, agent) ∉ m.waiters

/-- The queue moves, and its oldest entry is an instruction's, with no fetch ahead of it and nothing held back by a continuation (R37, R38,
R135); it waits for no walk (R166), and the die does not delay its work (R284). -/
def AtHead (i : Instr) (e : QEntry) (s : State) : Prop :=
  queueMoves s = true ∧ s.w.fetches = [] ∧ (∃ l, s.w.vq = e :: l) ∧ instrOfWord e.word = i ∧ opOf e.word ≠ 0x45 ∧ s.w.heldBack = false ∧
  NoWalk s 1 ∧ matrixDelayed s e.word = false

/-- A register holds what an instruction reads: it is not spilled (R93), no element of a list holds an error (R253), and it is not released
while such reads trap (R85). -/
def Holds (s : State) (r : Nat) (elems : List Nat) : Prop :=
  r < s.w.cfg.nreg ∧ (s.w.reg r).st ≠ .spilled ∧ (∀ i ∈ elems, i ∉ (s.w.reg r).bad) ∧
  (s.w.ctl.rdreltrap = true → (s.w.reg r).st ≠ .released)

/-- A register can be read: it holds its elements, and nothing lands in it any more (R406). -/
def Readable (s : State) (r : Nat) (elems : List Nat) : Prop := Holds s r elems ∧ s.w.landingIn [r] = false

/-- An entry that takes effect leaves the queue, the others keeping what they are but for load buffers (R154), its bound exchanged for its exact
charge (R129); the control thread stays where it is. -/
def LeavesQueueVm (s t : State) (e : QEntry) (ticks sectors : Nat) : Prop :=
  t.w.vq.map (fun e => { e with early := none }) = s.w.vq.tail.map (fun e => { e with early := none }) ∧ t.w.pc = s.w.pc ∧ t.w.wait = s.w.wait ∧
  t.w.bud = { s.w.bud with ibgt := s.w.bud.ibgt + BitVec.ofNat 64 e.rsvT - BitVec.ofNat 64 ticks
                           mbgt := s.w.bud.mbgt + BitVec.ofNat 64 e.rsvS - BitVec.ofNat 64 sectors }

/-- An entry that takes effect leaves the queue, its bound exchanged for its exact charge (R129); the control thread stays where it is. -/
def LeavesQueue (s t : State) (e : QEntry) (ticks sectors : Nat) : Prop :=
  t.w.vq = s.w.vq.tail ∧ t.w.pc = s.w.pc ∧ t.w.wait = s.w.wait ∧
  t.w.bud = { s.w.bud with ibgt := s.w.bud.ibgt + BitVec.ofNat 64 e.rsvT - BitVec.ofNat 64 ticks
                           mbgt := s.w.bud.mbgt + BitVec.ofNat 64 e.rsvS - BitVec.ofNat 64 sectors }

/-- The oldest entry takes effect. -/
def TakesEffect (s : State) (p : State → Prop) : Prop := ∃ t, exec .vectorQueueEntryEffect s = .next t ∧ p t

/-- The oldest entry traps: it and every later one stay queued, and nothing changes but the list of traps to be entered (R236). -/
def EntryTraps (s : State) (cause : BitVec 8) (vp : Nat) (val : U64) : Prop :=
  exec .vectorQueueEntryEffect s =
    .next { s with w := { s.w with traps := s.w.traps ++ [{ src := 2, cause := cause, vp := vp, val := val }] } }

/-- MAXVL (R64): the largest multiple of L and of BLK up to 8,192 and to what SHARE segments of 2,048 bits per lane hold. -/
def MaxVl (lanes quota nreg ew blk : Nat) : Nat :=
  min 8192 (lanes * (quota / nreg) * (2048 / ew)) / max lanes blk * max lanes blk

/-- No block is held, running or waiting. -/
def NoRuns (s : State) : Prop := s.w.runs = []

/-! ### Blocks (R30 to R36, R87) -/

/-- A block starts for VPs: they stand at its first word with no latch and no target, and only what the wave has queued, its runs, its
VPs and its latches differ. -/
def BlockStarts (s t : State) (r : Run) (vs : List Nat) : Prop :=
  t.w.runs = s.w.runs ++ [r] ∧ (∀ q ∈ s.w.runs, q.id ≠ r.id) ∧
  (∀ v, t.w.vp v = if v ∈ vs then some (.run r.id 0 0 none false) else s.w.vp v) ∧
  (∀ v, t.w.latch v = if v ∈ vs then [] else s.w.latch v) ∧ SameBytes s t ∧
  t = { s with w := { s.w with vq := t.w.vq, fetches := t.w.fetches, runs := t.w.runs, vps := t.w.vps, latches := t.w.latches } }

/-- The wave is resident on a die that runs. -/
def OnDuty (s : State) : Prop := s.running s.w.die = true ∧ s.w.isResident = true

/-- Every VP that executes a block executes one that the wave holds. -/
def RunsExist (w : Wave) : Prop := ∀ e ∈ w.vps, ∀ r, e.2.runId = some r → ∃ q ∈ w.runs, q.id = r

/-! ### Vector memory (R75, R76, R131, R154, R187, R244, R245, R303) -/

/-- The wave's registers are well formed: none listed that is released, every listed element below its tag and not zero, and no element
in the chip for a register that is not live (R75, R76). -/
def RegsOk (w : Wave) : Prop :=
  spWf ({} : VReg) 0 w.vregs = true ∧
  ∀ v, spWf (0 : U64) 0 (w.reg v).elems = true ∧ (∀ x ∈ (w.reg v).elems, x.1 < (w.reg v).tag) ∧
    ((w.reg v).st ≠ .live → (w.reg v).elems = [])

/-- The active elements below VL in ascending order (R27): all of them, or under mask those of mask register 0. -/
def actives (w : Wave) (m : BitVec 1) : List Nat := (List.range w.cfg.vl).filter (fun v => m == 0 || (w.mask 0).getLsbD v)

/-- A write of a register at VL finds its segments free in the pool and in the quota (R91, R95), and nothing lands in it any more (R406). -/
def HasRoom (s : State) (v : Nat) : Prop := s.w.landingIn [v] = false ∧ (s.w.cfg.vl = 0 ∨ canAlloc s (s.w.grow v) = true)

/-- An element's translation or data hold an uncorrectable error (R244, R254). -/
def Erroneous (f : Nat → Except (BitVec 8) Target) (bad : Nat → Target → Bool) (j : Nat) : Prop :=
  f j = .error 0x0F ∨ ∃ g, f j = .ok g ∧ bad j g = true

/-- No element of a list holds an error, every one below `n` can be accessed, and `n` is VL, or the first of them that faults, with one
before it (R244). -/
def Reaches (act : List Nat) (f : Nat → Except (BitVec 8) Target) (bad : Nat → Target → Bool) (vl n : Nat) : Prop :=
  (∀ j ∈ act, ¬ Erroneous f bad j) ∧ (∀ j ∈ act, j < n → ∃ g, f j = .ok g) ∧
  (n = vl ∨ (n ∈ act ∧ (∃ c, f n = .error c) ∧ ∃ j ∈ act, j < n))

/-- The target of an access that does not fault. -/
def place (f : Nat → Except (BitVec 8) Target) (j : Nat) : Target := match f j with | .ok g => g | .error _ => .sp 0

/-- The sectors of an access (R131): the span of a unit-stride one, otherwise one per element, outside the scratchpad. -/
def sectors (spans : Bool) (size : Nat) (addr : Nat → U64) (f : Nat → Except (BitVec 8) Target) (l : List Nat) : Nat :=
  let out := l.filter (fun j => (place f j).isSector)
  if spans then
    match out.head?, out.getLast? with
    | some a, some b => ((addr b).toNat + size - 1) / 32 - (addr a).toNat / 32 + 1
    | _, _ => 0
  else out.length

/-- An access over VL traps (R244, R254, R286, check 11): ECC of the first active element that holds an error, whatever its index; without one,
PAGE, ALIGN or PERM of its first active element. -/
def ElementTraps (s : State) (act : List Nat) (f : Nat → Except (BitVec 8) Target) (bad : Nat → Target → Bool) (pol3 : Bool)
    (addr : Nat → U64) : Prop :=
  (∀ j ∈ act, Erroneous f bad j → (∀ k ∈ act, k < j → ¬ Erroneous f bad k) →
    EntryTraps s 0x0F j (if pol3 then 0x0FFFFF0000000000 + addr j else addr j)) ∧
  (∀ j c l, act = j :: l → (∀ k ∈ act, ¬ Erroneous f bad k) → f j = .error c → EntryTraps s c j (addr j))

/-- A result lands in its places: a scalar register, or elements of a live register below its tag; no other register changes (R361, R396,
R406). -/
def Lands (s t : State) (ds : List Dst) (v : U64) : Prop :=
  (∀ r, t.w.gs r = if .sreg r ∈ ds ∧ r ≠ 0 then v else s.w.gs r) ∧
  (∀ x j, (t.w.reg x).elem j = if (.elem x j ∈ ds ∨ .loc x j ∈ ds) ∧ (s.w.reg x).st = .live ∧ j < (s.w.reg x).tag
    then BitVec.ofNat 64 (v.toNat % 2 ^ s.w.ew) else (s.w.reg x).elem j) ∧
  ∀ x, (t.w.reg x).st = (s.w.reg x).st ∧ (t.w.reg x).tag = (s.w.reg x).tag

/-- A result that a VP's own access delivers is the newest entry of its latches, while its block runs on (R86, R87, R396); no other latch
changes. -/
def Latched (s t : State) (d : Dst) (v : U64) : Prop :=
  ∀ i, t.w.latch i = if (match d with | .loc _ j => j == i | _ => false) = true ∧ s.w.trp.inh = false ∧ s.w.dbg.stopped = false
    then (BitVec.ofNat 64 (v.toNat % 2 ^ s.w.ew) :: s.w.latch i).take 4 else s.w.latch i

/-- Of the clusters only L1 of the wave's own differs, by copies of sectors as memory holds them (R151, R152, R177). -/
def OnlyL1 (s t : State) : Prop :=
  t.myCluster = { s.myCluster with l1 := t.myCluster.l1 } ∧ (∀ d c, clKey d c ≠ clKey s.w.die s.w.cl → t.cluster d c = s.cluster d c) ∧
  ∀ q x, lkGet t.myCluster.l1 q = some x → lkGet s.myCluster.l1 q = some x ∨ x = sectorValue s q

/-! ### Barriers (R181, R182) -/

/-- A barrier word after a credit (R182): with EXPECT 0 credits saturate in ARRIVED; otherwise every EXPECT of them completes a phase and
the excess carries over. -/
def Credited (old credit new : Nat) : Prop :=
  let expect := old / 2 ^ 32 % 2 ^ 31
  let arrived := old % 2 ^ 31
  let phase := old / 2 ^ 63 % 2
  (expect = 0 → new = phase * 2 ^ 63 + min (arrived + credit) (2 ^ 31 - 1)) ∧
  (expect ≠ 0 → ∃ completed rest, arrived + credit = completed * expect + rest ∧ rest < expect ∧
    new = (phase + completed) % 2 * 2 ^ 63 + expect * 2 ^ 32 + rest)

/-- The team's scratchpad is in its cluster (R148, R205), in its canonical form. -/
def SpHere (s : State) : Prop := s.myTeam.cl.isSome = true ∧ Memory.wf s.myTeam.sp = true ∧ spWf ({} : Team) 0 s.teams = true

/-- The wait of a control thread that a change of the team's scratchpad leaves: it stays, or a BWAIT has seen its phase change (R183, R347). -/
def Woken (x y : Option Wait) : Prop := y = x ∨ ∃ a p, x = some (.issued (.bwait a p) 0) ∧ y = some (.issued (.bwait a p) 1)

/-- Of the other waves nothing changes but that a BWAIT may have seen its phase change. -/
def WakesOthers (s t : State) : Prop :=
  t.others.length = s.others.length ∧ ∀ e ∈ s.others.zip t.others, Woken e.1.wait e.2.wait ∧ e.2 = { e.1 with wait := e.2.wait }

/-- The offset in the scratchpad that a barrier operand names (R331). -/
def barrierOffset (x : U64) : Nat := if x.toNat / 2 ^ 40 % 2 ^ 24 = 2 ^ 20 - 1 then x.toNat % 2 ^ 40 else x.toNat

/-- A wave of a team waits in a BWAIT on a barrier word for its phase to leave a value. -/
def WaitsOn (w : Wave) (team off phase : Nat) : Prop :=
  w.team = team ∧ ∃ a p, w.wait = some (.issued (.bwait a p) 0) ∧ barrierOffset (w.gs a) = off ∧ p.toNat = phase

/-- Every other wave of the team that waits for a barrier's phase to leave a value has seen it do so. -/
def Releases (s t : State) (off phase : Nat) : Prop :=
  ∀ e ∈ s.others.zip t.others, WaitsOn e.1 s.w.team off phase → ∃ i, e.2.wait = some (.issued i 1)

/-- A doubleword of the team's scratchpad takes a value; of the teams nothing else changes but the mark of an error that it covers
(R253). -/
def WritesSp (s t : State) (off v : Nat) : Prop :=
  Memory.readN t.myTeam.sp off 8 = v ∧ (∀ a, a < off ∨ off + 8 ≤ a → Memory.read t.myTeam.sp a = Memory.read s.myTeam.sp a) ∧
  t.myTeam = { s.myTeam with sp := t.myTeam.sp, bad := s.myTeam.bad.filter (fun k => !(decide (off ≤ 8 * k) && decide (8 * k ≤ off))) } ∧
  ∀ k, k ≠ s.w.team → t.team k = s.team k

/-! ### The matrix unit (R118, R119, R216 to R232) -/

/-- Registers that a matrix instruction can read: below NREG, not spilled, without errors, nothing landing in them any more, and released only
where that does not trap. -/
def Named (s : State) (regs : List Nat) : Prop :=
  ∀ r ∈ regs, r < s.w.cfg.nreg ∧ (s.w.reg r).st ≠ .spilled ∧ (s.w.reg r).bad = [] ∧ s.w.landingIn [r] = false ∧
    (s.w.ctl.rdreltrap = true → (s.w.reg r).st ≠ .released)

/-- The tiles are in their canonical form, and no row of them holds an error. -/
def TilesOk (w : Wave) : Prop := spWf (0 : BitVec 32) 0 w.tiles = true ∧ w.badRows = []

/-- Row `i` is selected by an instruction that starts at row `lo` (R220). -/
def RowOn (w : Wave) (lo : Nat) (rm : BitVec 1) (i : Nat) : Prop :=
  lo ≤ i ∧ i < min w.cfg.vl 64 ∧ (rm = 1 → (w.mask 0).getLsbD i = true)

/-- The accumulator word of row `i` and column `j` of a product with its flags (R118): exact modulo 2^32 for integer pairs, otherwise one
rounding of the exact sum; `l` lists the entries of B in the column, each as its k and its bits. -/
def product (w : Wave) (f : BitVec 4) (t a i j : Nat) (l : List (Nat × Nat)) : Nat × BitVec 5 :=
  let x (k : Nat) : Nat := packed w a (if f.toNat ≤ 1 then 8 else 16) i k
  if f.toNat ≤ 1 then
    ((((w.tile t i j : Int) + (l.map (fun (e : Nat × Nat) => sval 8 (x e.1) * (if f = 0 then sval 8 e.2 else kq4 e.2))).sum) % 2 ^ 32).toNat, 0)
  else macWord f (w.tile t i j) (l.map (fun e => (x e.1, e.2)))

/-- The entries of B in column `j` of a dense product (R218, R220). -/
def denseEntries (w : Wave) (f : BitVec 4) (b j : Nat) : List (Nat × Nat) :=
  (List.range (if f.toNat ≤ 1 then 32 else 16)).map (fun k => (k, packed w b (if f = 0 then 8 else if f = 1 then 4 else 16) (vpOf j) k))

/-- The entries of B in column `j` of a sparse product (R225 to R227). -/
def sparseEntries (w : Wave) (f : BitVec 4) (p : BitVec 3) (x : BitVec 1) (b j : Nat) : List (Nat × Nat) :=
  (sparseCol w b p f x j).map (fun e => (e.k, e.v))

/-- A matrix instruction that takes effect leaves the queue for its completion with its exact charge; `f` says what else of the wave changes. -/
def StartsMatrix (s t : State) (e : QEntry) (ticks sectors : Nat) (f : Wave → Wave) : Prop :=
  LeavesQueue s t e ticks sectors ∧ t.w = { f s.w with vq := t.w.vq, bud := t.w.bud, mat := [{ e with cap := [] }] }

/-- The die's arbiter notes the cluster where it starts matrix work that it had none of in this interval or the one before (R284). -/
def noted (s : State) : Package :=
  { s.pkg with power := { s.pkg.power with
    started := if startsMatrix s then clKey s.w.die s.w.cl :: s.pkg.power.started else s.pkg.power.started } }

/-- The request of the focused wave is the next of its cluster's ownership queue: highest class, then lowest stamp (R211, R213). -/
def MatrixTurn (s : State) : Prop :=
  s.myCluster.owner = none ∧ s.w.id ∈ s.myCluster.macq ∧
  ∀ w ∈ s.others, w.id ∈ s.myCluster.macq → w.hdr.cls < s.w.hdr.cls ∨ (w.hdr.cls = s.w.hdr.cls ∧ s.w.stamp < w.stamp)

/-- The unit is the focused wave's: it leaves the ownership queue, and its tiles are those in the unit where they are its own, those of its
tile area after an earlier ownership, and zero at its first grant (R212, R216). -/
def OwnsMatrix (s t : State) : Prop :=
  t.myCluster = { s.myCluster with
    owner := some s.w.id, tileOf := some s.w.id, kept := [], keptBad := [], macq := s.myCluster.macq.filter (· != s.w.id) } ∧
  (∀ d c, clKey d c ≠ clKey s.w.die s.w.cl → t.cluster d c = s.cluster d c) ∧ t.w.everOwned = true ∧ t.w.wantsMat = false ∧
  (s.myCluster.tileOf = some s.w.id → t.w.tiles = s.w.tiles) ∧
  (s.myCluster.tileOf ≠ some s.w.id → s.w.everOwned = false → t.w.tiles = [])

/-- A trap of the instruction itself after its charge: SRC 0, EPC at the instruction, no other effect (R127, R236, R286). -/
def FaultsWith (i : Instr) (ticks sectors : Nat) (cause : BitVec 8) (val : U64) (s : State) : Prop :=
  ∃ t, exec i s = .next t ∧ TakesTrap s t 0 cause 0 0 val s.w.pc ∧ TrapLeaves s t ∧ (NoneEnding s → Charged s t ticks sectors)

/-- A byte of package memory or of a team's scratchpad. -/
def byteAt (s : State) (team : Nat) : Target → Byte
  | .pkg pa => Memory.read s.mem pa
  | .sp off => Memory.read (s.team team).sp off
  | .win _ _ => 0

/-! ### Issue steps of a lane (R31 to R35, R39, R52, R75 to R87, R127, R130, R143, R286, R307) -/

/-- A lane executes a word for VPs that stand at it: no check of R286 fails, nothing makes the step wait, every `xin` entry and every
operand is there (R52, R82, R85, R87, R91 to R93, R166, R191, R253, R406, R473), and no comparison of redundant lanes disagrees (R58). -/
def StepIssues (i : Instr) (g : BGate) (s : State) (x : Issue) : Prop :=
  s.agent = .lane x.run.id x.vps ∧ currentIssue s = some x ∧
  (∀ v ∈ x.vps, ∃ tg, s.w.vp v = some (.run x.run.id x.pos x.rep tg false)) ∧ x.vps.Nodup ∧ RegsOk s.w ∧
  s.w.vps.Pairwise (fun y z => y.1 < z.1) ∧ reservedCode i = false ∧ g.xtraBad = false ∧ (x.run.idem = true → g.idemBad = false ∧ 0x44 ∉ g.srcs) ∧
  (g.cross = true → x.run.kind.isThread = false) ∧ (∀ r ∈ g.allReads ++ g.writes, r < s.w.cfg.nreg) ∧ g.bad7 = false ∧
  g.frame = none ∧ g.bad9 = false ∧ blockStalls s x g g.useQueue = false ∧ lackXin s x g = [] ∧ Translated s g.vas ∧ operandTrap s x g = none ∧
  g.late = none ∧ dualCase s x = 0

/-- The active VPs of a step (R36): all of them, or under mask those of mask register 0. -/
def activeOf (s : State) (m : BitVec 1) (x : Issue) : List Nat := x.vps.filter (fun v => m == 0 || (s.w.mask 0).getLsbD v)

/-- A register is declared dead by this word or by an earlier one of its run, so that its release may come due (R79, R80). -/
def Declared (g : BGate) (x : Issue) (v : Nat) : Prop :=
  (v ∈ g.allDead ∧ x.run.kind.isThread = false) ∨ ∃ e ∈ x.run.decl, e.2 = v

/-- A step commits for its VPs: `go` says where each of them stands then with its latched target; their run counts the step and its ticks
(R127), which a catch block pays at once (R130), reads of released registers and invalid latches are marked (R85, R87), `xin` entries
are popped once for each active VP (R52), and registers other than those written stay, unless a declared release comes due; it does
where the whole block stands at the word (R79). The rest of the machine stays, but for what the instruction itself writes. -/
def StepGoes (s t : State) (x : Issue) (g : BGate) (go : Nat → Option (U64 × Nat) → VpSt) : Prop :=
  let lin := linOf x.run.words x.pos x.rep
  let old := spGet 0 x.run.seen lin
  let cost : Nat := wordTicks (old + x.vps.length) x.word - (if old = 0 then 0 else wordTicks old x.word)
  let act := if g.readAll then x.vps else activeOf s g.m x
  (∀ v, v ∉ x.vps → t.w.vp v = s.w.vp v) ∧
  (∀ v ∈ x.vps, ∀ tg, s.w.vp v = some (.run x.run.id x.pos x.rep tg false) → t.w.vp v = some (go v tg)) ∧
  (∃ q ∈ t.w.runs, q.id = x.run.id ∧ q.words = x.run.words ∧ q.ticks = x.run.ticks + cost) ∧
  (∀ q ∈ t.w.runs, q.id ≠ x.run.id → q ∈ s.w.runs) ∧
  (t.w.bud = if x.run.kind = .catchGroup ∨ x.run.kind = .resent then (s.w.deduct cost 0).bud else s.w.bud) ∧
  (t.w.ctl.rdrel = true ↔ s.w.ctl.rdrel = true ∨ (act ≠ [] ∧ ∃ r ∈ g.allReads, (s.w.reg r).st = .released ∨ (lin, r) ∈ x.run.fresh)) ∧
  (t.w.ctl.latinv = true ↔ s.w.ctl.latinv = true ∨
    ∃ b ∈ g.srcs, 0x40 ≤ b.toNat ∧ b.toNat < 0x44 ∧ ∃ u ∈ act, (s.w.latch u).length ≤ b.toNat - 0x40) ∧
  (0x44 ∉ g.srcs → g.qseg = false → t.w.xq = s.w.xq) ∧
  (0x44 ∈ g.srcs → g.qseg = false → ∀ v,
    let mine (q : List XEntry) := q.filter (fun e => e.vp == v && e.bnd != takeBnd)
    mine t.w.xq = if v ∈ activeOf s g.m x then (mine s.w.xq).tail else mine s.w.xq) ∧
  (∀ v, v ∉ g.writes → t.w.reg v = s.w.reg v ∨ (Declared g x v ∧ t.w.reg v = {})) ∧
  (x.run.kind.isThread = false → x.run.idem = false → (∀ w ∈ x.run.words, opOf w ≠ 0xC5) →
    (∀ e ∈ s.w.runVps x.run.id, e.1 ∈ x.vps) → ∀ v ∈ g.allDead, t.w.reg v = {}) ∧
  SameBytes s t ∧
  t = { s with w := { s.w with
    vps := t.w.vps, runs := t.w.runs, bud := t.w.bud, ctl := { s.w.ctl with rdrel := t.w.ctl.rdrel, latinv := t.w.ctl.latinv }
    xq := t.w.xq, qseg := t.w.qseg, qage := t.w.qage, vregs := t.w.vregs, latches := t.w.latches, masks := t.w.masks
    cfg := { s.w.cfg with fflags := t.w.cfg.fflags, nzcnt := t.w.cfg.nzcnt } } }

/-- The place after the word of a step (R307): the next word, or in a repeat frame the next replay. -/
def nextState (x : Issue) (tg : Option (U64 × Nat)) : VpSt :=
  .run x.run.id (nextPos x.run.words x.pos x.rep).1 (nextPos x.run.words x.pos x.rep).2 tg false

/-- A step commits and its VPs go on to the word that R307 names, with their targets. -/
def StepCommits (s t : State) (x : Issue) (g : BGate) : Prop := StepGoes s t x g (fun _ tg => nextState x tg)

/-- A step writes no register, mask or flag, pushes no latch, and leaves the cross-element queue's segment. -/
def WritesNothing (s t : State) : Prop :=
  t.w.masks = s.w.masks ∧ t.w.latches = s.w.latches ∧ t.w.cfg = s.w.cfg ∧ t.w.qseg = s.w.qseg

/-- An issue step of a lane traps: no VP of it moves and nothing changes but the list of traps to be entered (R35, R236). -/
def StepTraps (i : Instr) (s : State) (x : Issue) (cause : BitVec 8) (vp : Nat) : Prop :=
  exec i s = .next { s with w := { s.w with traps := s.w.traps ++
    [{ src := 1, cause := cause, iw := x.pos + 1, vp := vp, val := x.addr, vps := x.vps }] } }

/-- A register holds what a masked write at VL leaves (R75, R76): the values of the active VPs cut to EW, the other elements below VL as
they were, 0 from VL on; at VL 0 nothing is written. A release that comes due may follow. -/
def Written (s t : State) (x : Issue) (r : Nat) (act : List Nat) (f : Nat → Nat) : Prop :=
  (t.w.reg r = {} ∧ ∃ e ∈ x.run.decl, e.2 = r) ∨
  (s.w.cfg.vl = 0 ∧ t.w.reg r = s.w.reg r) ∨
  (s.w.cfg.vl ≠ 0 ∧ (t.w.reg r).st = .live ∧ (t.w.reg r).tag = s.w.cfg.vl ∧ ∀ j, (t.w.reg r).elem j =
    if s.w.cfg.vl ≤ j then 0 else if j ∈ act then BitVec.ofNat 64 (f j % 2 ^ s.w.ew) else (s.w.reg r).elem j)

/-- FFLAGS takes the flags of the active VPs and keeps its own (R116). -/
def FlagsMerge (s t : State) (act : List Nat) (f : Nat → BitVec 5) : Prop :=
  ∀ n, t.w.cfg.fflags.getLsbD n = true ↔ s.w.cfg.fflags.getLsbD n = true ∨ ∃ v ∈ act, (f v).getLsbD n = true

/-- A step of results completes (R392): the result of each VP of `act` goes to its element of vd, or with ws = 1 to no register, and
into its latches (R86); its flags merge; NZCNT is `nz`; masks and the other latches stay. -/
def ResultStep (i : Instr) (g : BGate) (d : BitVec 6) (ws : BitVec 1) (s : State) (x : Issue) (act : List Nat)
    (f : Nat → Nat × BitVec 5) (nz : BitVec 14) : Prop :=
  ∃ t, exec i s = .next t ∧ StepCommits s t x g ∧ (ws = 0 → Written s t x d.toNat act (fun v => (f v).1)) ∧
    FlagsMerge s t act (fun v => (f v).2) ∧ t.w.masks = s.w.masks ∧ t.w.cfg.nzcnt = nz ∧ t.w.qseg = s.w.qseg ∧
    ∀ v, t.w.latch v = if v ∈ act then (BitVec.ofNat 64 ((f v).1 % 2 ^ s.w.ew) :: s.w.latch v).take 4 else s.w.latch v

/-- An element-wise instruction completes its step for its active VPs. -/
def ElementStep (i : Instr) (g : BGate) (d : BitVec 6) (ws : BitVec 1) (s : State) (x : Issue) (f : Nat → Nat × BitVec 5) : Prop :=
  ResultStep i g d ws s x (activeOf s g.m x) f s.w.cfg.nzcnt

/-- What an element-wise word asks of its step: its sources, vd where it accumulates, vd written with ws = 0, a zero vd with ws = 1
(R77), and the width that its format asks (R103). -/
def elementGate (m : BitVec 1) (d : BitVec 6) (ws : BitVec 1) (srcs : List (BitVec 8)) (acc badWidth : Bool) : BGate :=
  { m := m, srcs := srcs, reads := if acc then [d.toNat] else [], writes := if ws = 0 then [d.toNat] else []
    bad7 := ws == 1 && !acc && d != 0, bad9 := badWidth }

/-- A condition of R294 on two elements of `n` bits. -/
def elementHolds (n : Nat) (c : BitVec 3) (x y : Nat) : Bool :=
  if c = 0 then decide (x = y) else if c = 1 then decide (x ≠ y) else if c = 2 then decide (x < y) else if c = 3 then decide (y ≤ x)
  else if c = 4 then decide (sval n x < sval n y) else if c = 5 then decide (sval n y ≤ sval n x) else decide (x &&& y ≠ 0)

/-- A compare completes its step (R401): each active VP's bit of md says whether the condition holds, every other bit of every mask
keeps its value, no latch is pushed, and the flags merge. -/
def CompareStep (i : Instr) (m : BitVec 1) (md : BitVec 3) (g : BGate) (s : State) (x : Issue) (f : Nat → Bool × BitVec 5) : Prop :=
  ∃ t, exec i s = .next t ∧ StepCommits s t x g ∧ FlagsMerge s t (activeOf s m x) (fun v => (f v).2) ∧ t.w.latches = s.w.latches ∧
    t.w.cfg.nzcnt = s.w.cfg.nzcnt ∧ t.w.qseg = s.w.qseg ∧
    ∀ (k : BitVec 3) v, v < 8192 →
      (t.w.mask k).getLsbD v = if k = md ∧ v ∈ activeOf s m x then (f v).1 else (s.w.mask k).getLsbD v

/-- A single element as a reduction or the start of a scan delivers it (R106, R114, R120, R121): unchanged for an integer code; for a floating
one the canonical NaN with NV for a signalling one, and zero for a subnormal of E8M7. -/
def single (c x : Nat) : Nat × BitVec 5 :=
  let by' (f : Fmt) : Nat × BitVec 5 := if (f.dec x).isNan then nanOut f (f.dec x).isSig else (f.read x, 0)
  if c = 8 ∨ c = 11 ∨ c = 12 then by' .f32 else if c = 9 ∨ c = 13 ∨ c = 14 then by' .f16 else if c = 10 then by' .e8m7 else (x, 0)

/-- The tree of R120 over a list of elements: the split is at the largest power of two below the count. -/
inductive ReductionTree (op : Nat → Nat → Nat × BitVec 5) : List Nat → Nat × BitVec 5 → Prop
  | leaf (x : Nat) : ReductionTree op [x] (x, 0)
  | node (l : List Nat) (p : Nat) (a b : Nat × BitVec 5) : 2 ^ p < l.length → l.length ≤ 2 * 2 ^ p →
      ReductionTree op (l.take (2 ^ p)) a → ReductionTree op (l.drop (2 ^ p)) b →
      ReductionTree op l ((op a.1 b.1).1, (op a.1 b.1).2 ||| a.2 ||| b.2)

/-- The node operation of a reduction code (R431), always rounded to nearest. -/
def reduction (n c x y : Nat) : Nat × BitVec 5 :=
  if c = 0 then ((x + y) % 2 ^ n, 0) else if c = 1 then (min x y, 0) else if c = 2 then (uval n (min (sval n x) (sval n y)), 0)
  else if c = 3 then (max x y, 0) else if c = 4 then (uval n (max (sval n x) (sval n y)), 0) else if c = 5 then (x &&& y, 0)
  else if c = 6 then (x ||| y, 0) else if c = 7 then (x ^^^ y, 0) else if c = 8 then fadd .f32 rne x y
  else if c = 9 then fadd .f16 rne x y else if c = 10 then fadd .e8m7 rne x y else if c = 11 then fminmax .f32 false x y
  else if c = 12 then fminmax .f32 true x y else if c = 13 then fminmax .f16 false x y else fminmax .f16 true x y

/-- The result of VRED over the active elements (R120, R431). -/
def Reduced (n c : Nat) (l : List Nat) (r : Nat × BitVec 5) : Prop :=
  (∀ x, l = [x] → r = single c x) ∧ (2 ≤ l.length → ReductionTree (reduction n c) l r)

/-- The result of a scan at the place `k` of a list (R121), with the flags of its own step. -/
def scanned (op : Nat → Nat → Nat × BitVec 5) (l : List Nat) : Nat → Nat × BitVec 5
  | 0 => (l.getD 0 0, 0)
  | k + 1 => op (scanned op l k).1 (l.getD (k + 1) 0)

/-- What VSCAN delivers at a place: the first element as `single` says, and the running results after it. -/
def scanResult (n c : Nat) (l : List Nat) (k : Nat) : Nat × BitVec 5 :=
  if k = 0 then single c (l.getD 0 0) else scanned (reduction n c) l k

/-- The width that a reduction code asks of EW is not there (R431). -/
def badReduction (n c : Nat) : Bool :=
  (decide (c = 8 ∨ c = 11 ∨ c = 12) && decide (n ≠ 32)) || (decide (c = 9 ∨ c = 10 ∨ c = 13 ∨ c = 14) && decide (n ≠ 16))

/-! ### Lanes (R32, R33, R43 to R46, R128, R246) -/

/-- A lane starts the block at an address for VPs of the thread state (R43, R128): the block's reservation is deducted, and nothing but
the block, its VPs, its latches and the wave's serial VP changes. Where the reservation does not fit, a pending exhaustion is raised (R132);
that one raised before stands is the model's choice (log entry 63). -/
def ThreadStarts (i : Instr) (s : State) (j : Nat) (a : U64) (h : BitVec 32) (ws : List (BitVec 32)) (vs : List Nat) (serial : Option Nat) :
    Prop :=
  let q := reservation ws vs.length
  (s.w.fitsT q.1 = true → s.w.fitsS q.2 = true →
    ∃ t r, exec i s = .next t ∧ t.w.serialVp = serial ∧
      t.w.bud = { s.w.bud with ibgt := s.w.bud.ibgt - BitVec.ofNat 64 q.1, mbgt := s.w.bud.mbgt - BitVec.ofNat 64 q.2 } ∧
      BlockStarts s { t with w := { t.w with serialVp := s.w.serialVp, bud := s.w.bud } } r vs ∧ t.w.vq = s.w.vq ∧
      t.w.fetches = s.w.fetches ∧ r.kind = .thread j ∧ r.addr = a ∧ r.words = ws ∧ r.idem = hdrIdem h ∧ r.rsvT = q.1 ∧ r.rsvS = q.2 ∧
      r.vps = vs) ∧
  (s.w.fitsT q.1 = false ∨ s.w.fitsS q.2 = false →
    exec i s = .next { s with w := { s.w with
      serialVp := serial
      bud := { s.w.bud with exhaust := some (s.w.bud.exhaust.getD (if s.w.fitsT q.1 then 0x21 else 0x20)) } } })

/-- VPs whose block cannot be fetched become idle with their bits of m7 set; the other VPs and masks stay (R246). -/
def ThreadFaults (i : Instr) (s : State) (vs : List Nat) : Prop :=
  ∃ t, exec i s = .next t ∧ SameBytes s t ∧ t.w.bud = s.w.bud ∧ t.w.traps = s.w.traps ∧
    (∀ v, t.w.vp v = if v ∈ vs then none else s.w.vp v) ∧
    (∀ v, v < 8192 → (t.w.mask 7).getLsbD v = (decide (v ∈ vs) || (s.w.mask 7).getLsbD v)) ∧
    ∀ k : BitVec 3, k ≠ 7 → t.w.mask k = s.w.mask k

/-- A lane takes an address whose VPs wait to start: what it does where the block is there, where it is not, and where its memory holds
an error; the words are in the lane's cache and translated (R206). -/
def LaneTakes (i : Instr) (s : State) (j : Nat) (a : U64) (vs : List Nat) (serial : Option Nat) : Prop :=
  awaitBlock (2 + j) (s.ownLane j) a s = none → NoWalk s (2 + j) →
  let block := namedBlockIn (s.cacheOf (s.ownLane j)) s a
  (∀ h ws, block = .ok (h, ws) → ThreadStarts i s j a h ws vs serial) ∧
  (∀ c v, block = .error (c, v) → c ≠ 0x0F → ThreadFaults i s vs) ∧
  (∀ v, block = .error (0x0F, v) → exec i s = .next { s with w := { s.w with
    serialVp := serial
    traps := s.w.traps ++ [{ src := 1, cause := 0x0F, vp := vs.headD 0, val := v, vps := vs }] } })

/-- Lane `j` may take up a block: the wave is in the active set of a die that runs, outside handler mode, not stopped, with no synchronous trap
and no save that faults waiting; the lane is in no block of its own and no other wave holds it (R43, R44, R206, R236, R239), and no lower
lane would start a block now (R128). -/
def LaneIdle (s : State) (j : Nat) : Prop :=
  OnDuty s ∧ s.w.active = true ∧ s.w.trp.inh = false ∧ s.w.saveFault = false ∧ s.w.frozen = false ∧ s.w.doubleCause = none ∧
  (∀ t ∈ s.w.traps, t.src = 3) ∧ j < s.w.lanes ∧ s.w.laneBusy j = false ∧ laneTaken s j = false ∧ ∀ i < j, startsNow s i = false

/-- The wave's lanes may start blocks: it is in no continuation, before no pre-emption, and on no way off its cluster (R135, R137, R142). -/
def MayBegin (s : State) : Prop := s.w.ctl.incont = false ∧ s.w.bud.preempt = false ∧ s.w.departing = false

/-! ### The cluster scheduler (R203, R204, R206, R207) -/

/-- The waves of the machine with others of them active: `f` says which, by their numbers, and `g` for which a stall has lasted long; nothing
else of any wave changes. -/
def ActiveSet (s t : State) (f g : Wave → Bool) : Prop :=
  t = { s with
    w := { s.w with active := f s.w, stallLong := g s.w }, others := s.others.map (fun w => { w with active := f w, stallLong := g w }) }

/-- The wave is the one that a free slot goes to: ready and pending in its cluster, and no other such wave goes before it (R207). -/
def NextIn (s : State) (p : Wave) : Prop :=
  p ∈ s.residents s.w.die s.w.cl ∧ isReady (s.focus p.id) = true ∧
  ∀ q ∈ s.residents s.w.die s.w.cl, isReady (s.focus q.id) = true → q.id ≠ p.id → p.goesBefore q = true

/-- The active wave that leaves for another: of the lowest class, and among those of the highest stamp (R207). -/
def Weakest (s : State) (d : Wave) : Prop :=
  d ∈ activeWaves s ∧ ∀ q ∈ activeWaves s, q.id ≠ d.id → d.hdr.cls < q.hdr.cls ∨ (d.hdr.cls = q.hdr.cls ∧ q.stamp < d.stamp)

/-! ### Memory's own events (R157, R326, R164 to R167, R170, R177) -/

/-- The new value of a bank operation at a width (R326), of an old value, an operand and a comparand below 2^w. -/
def bankValue (w op old b c : Nat) : Nat :=
  if op = 0 then b else if op = 1 then (if old = c then b else old) else if op = 2 then (old + b) % 2 ^ w
  else if op = 3 then old &&& b else if op = 4 then old ||| b else if op = 5 then old ^^^ b
  else if op = 6 then (if sval w old ≤ sval w b then old else b) else if op = 7 then (if sval w old ≤ sval w b then b else old)
  else if op = 8 then min old b else if op = 9 then max old b else (fadd .f32 rne old b).1

/-- What a store or an atomic of `n` bytes leaves where the old value stood. -/
def performed (n old : Nat) : ReqOp → Nat
  | .store v => v.toNat % 2 ^ (8 * n)
  | .bank op x c => bankValue (8 * n) op old (x.toNat % 2 ^ (8 * n)) (c.toNat % 2 ^ (8 * n)) % 2 ^ (8 * n)

/-- A request of the wave leaves its list, and what it read is on its way back where something waits for it; the registers, budgets and
PC of the wave stay. -/
def Answered (s t : State) (k : Nat) (r : Req) (v : U64) : Prop :=
  t.w.reqs = s.w.reqs.eraseIdx k ∧
  t.w.vps = s.w.vps ∧ t.w.vland = s.w.vland ∧ t.w.loads = s.w.loads ∧
  t.w.replies = (if r.dst = .none then s.w.replies else s.w.replies ++ [⟨r.dst, v, r.size, r.tgt⟩]) ∧
  t.w.s = s.w.s ∧ t.w.pc = s.w.pc ∧ t.w.bud = s.w.bud ∧ t.w.vregs = s.w.vregs ∧ t.dies = s.dies

/-! ### Event records, soft errors, links and power (R242, R243, R253, R254, R262, R283) -/

/-- An event record with its four doublewords is written to the next slot of a die's ring, and PROD counts it (R242, R243); no other byte of
memory changes, and of the poisoned sectors `p` the record's own is poisoned no more (R254). -/
def RecordWritten (s t : State) (p : List Nat) (die : Nat) (wid word pc val : Nat) : Prop :=
  let ring := 0x80000 + 0x4000 * die
  let k := Memory.readN s.mem ring 8
  let slot := ring + 0x20 * (1 + k % 511)
  Memory.readN t.mem slot 8 = wid % 2 ^ 64 ∧ Memory.readN t.mem (slot + 8) 8 = word % 2 ^ 64 ∧
  Memory.readN t.mem (slot + 16) 8 = pc % 2 ^ 64 ∧ Memory.readN t.mem (slot + 24) 8 = val % 2 ^ 64 ∧
  Memory.readN t.mem ring 8 = (k + 1) % 2 ^ 64 ∧
  (∀ a, (a < ring ∨ ring + 8 ≤ a) → (a < slot ∨ slot + 32 ≤ a) → Memory.read t.mem a = Memory.read s.mem a) ∧
  ∀ j, j ∈ t.poison ↔ j ∈ p ∧ j ≠ slot / 32

/-- The second doubleword of a record (R243): kind, cause, ASID, die, cluster, the corrected flag, unit and index. -/
def recordFields (kind cause asid die cl : Nat) (corr : Bool) (unit idx : Nat) : Nat :=
  kind * 2 ^ 56 + cause * 2 ^ 48 + asid * 2 ^ 32 + die % 16 * 2 ^ 28 + cl % 64 * 2 ^ 22 + (if corr then 2 ^ 21 else 0) +
    unit % 128 * 2 ^ 14 + idx % 2 ^ 14

/-! ### Management commands and the debug port (R258, R280, R281) -/

/-- The package takes management commands: it has booted, also without a wave, or is held out of service (R270). -/
def TakesCommands (s : State) : Prop := s.pkg.service = .running ∨ s.pkg.service = .noLaunch ∨ ∃ m, s.pkg.service = .heldOut m

/-- A management command arrives with these arguments (R280): the host sends it, or it is in the mailbox with a new sequence number while no
other command of the mailbox is taken. -/
def CommandArrives (host : BitVec 1) (code a0 a1 a2 a3 : U64) (s : State) : Prop :=
  host = 0 → Memory.readN s.mem 0xC1000 8 ≠ Memory.readN s.mem 0xC1080 8 ∧ (∀ c ∈ s.pkg.cmds, c.host = true) ∧
    Memory.readN s.mem 0xC1008 8 = code.toNat ∧ Memory.readN s.mem 0xC1010 8 = a0.toNat ∧ Memory.readN s.mem 0xC1018 8 = a1.toNat ∧
    Memory.readN s.mem 0xC1020 8 = a2.toNat ∧ Memory.readN s.mem 0xC1028 8 = a3.toNat

/-- The copy that is taken of a command: its arguments, and the sequence number that the mailbox holds (R280). -/
def taken (host : BitVec 1) (code a0 a1 a2 a3 : U64) (s : State) : Command :=
  ⟨host == 1, BitVec.ofNat 64 (Memory.readN s.mem 0xC1000 8), code, a0, a1, a2, a3⟩

/-- A management command stands, with its sequence number and the commands taken after it: it arrives and no other is taken, or it is the
oldest of those taken (R280). -/
def CommandStands (host : BitVec 1) (code a0 a1 a2 a3 req : U64) (rest : List Command) (s : State) : Prop :=
  TakesCommands s ∧ Memory.wf s.mem = true ∧
  ((s.pkg.cmds = [] ∧ rest = [] ∧ CommandArrives host code a0 a1 a2 a3 s ∧ req.toNat = Memory.readN s.mem 0xC1000 8) ∨
    s.pkg.cmds = ⟨host == 1, req, code, a0, a1, a2, a3⟩ :: rest)

/-- What a completed command tells: the host its status and result, or the mailbox STATUS, RES0 and RSP, which takes the command's sequence
number; every other byte of memory reads as in `m` (R280). -/
def Told (host : BitVec 1) (req : U64) (s t : State) (m : List Host.Cell) (status res : Nat) : Prop :=
  (host = 1 → t.pkg.hostStatus = some (status, BitVec.ofNat 64 res) ∧ ∀ a, Memory.read t.mem a = Memory.read m a) ∧
  (host = 0 → t.pkg.hostStatus = s.pkg.hostStatus ∧ Memory.readN t.mem 0xC1088 8 = status ∧ Memory.readN t.mem 0xC1090 8 = res ∧
    Memory.readN t.mem 0xC1080 8 = req.toNat ∧ ∀ a, a < 0xC1080 ∨ 0xC1098 ≤ a → Memory.read t.mem a = Memory.read m a)

/-- A management command completes with a status and a result, and the next ones stand; of the machine `f` says what it changes beside. -/
def Commanded (i : Instr) (host : BitVec 1) (req : U64) (rest : List Command) (status res : Nat) (f : State → State) (s : State) : Prop :=
  ∃ t, exec i s = .next t ∧
    t = { f s with mem := t.mem, pkg := { (f s).pkg with hostStatus := t.pkg.hostStatus, cmds := rest } } ∧ Told host req s t s.mem status res

/-- A debug command acts on the wave that it names: `p` relates the machine with that wave focused before and after, and the focus
returns. -/
def Debugged (i : Instr) (s : State) (id : Nat) (p : State → State → Prop) : Prop :=
  ∃ u, exec i s = .next (u.focus s.w.id) ∧ p (s.focus id) u

/-- A debug command names a wave: the first of the cluster's waves with the WID (R258). -/
def NamesWave (s : State) (die cl : Nat) (wid : U64) (id : Nat) : Prop :=
  ∃ w, w ∈ s.residents die cl ∧ w.id = id ∧ w.wid = wid ∧ ∀ v ∈ s.residents die cl, v.wid = wid → v.id = id

end Sys2Proof.Spec
end

