-- ==== Sys2Proof/Certificates/Slice0/Obligations.lean ====
section
/-! DEFINITION. The statements about the model, each a proposition that a prover proves or refutes. -/

open Sys2Proof Sys2Proof.Machine Sys2Proof.Spec

/-! ### Scalar operations -/

/-- R324 with R108 and the entries of the operations: each two-register operation of format S writes its result to sd, or discards it
for s0, is charged 1 tick, goes on with the next instruction and leaves everything else alone.
R324 with R325, R329, R373, R455, R381, R382, R374, R349 and R298: the immediate forms use imm14 sign-extended, POPC counts ones,
CLZ leading zeros, LI and LIS build a constant; each under the same rule of completion and of what stays. -/
def Obligations.ScalarResults : Prop :=
  (∀ (d a b : BitVec 5) (s : State),
     let x := s.w.gs a
     let y := s.w.gs b
     let ready (i : Instr) : Prop := Issues i { deps := [d, a, b] } s
     (ready (.add d a b) → ScalarResult (.add d a b) d (x + y) s) ∧
     (ready (.sub d a b) → ScalarResult (.sub d a b) d (x - y) s) ∧
     (ready (.mul d a b) → ScalarResult (.mul d a b) d (x * y) s) ∧
     (ready (.mulh d a b) → ScalarResult (.mulh d a b) d (BitVec.ofNat 64 (x.toNat * y.toNat / 2 ^ 64)) s) ∧
     (ready (.mulhs d a b) → ScalarResult (.mulhs d a b) d (BitVec.ofInt 64 (x.toInt * y.toInt / 2 ^ 64)) s) ∧
     (ready (.div d a b) → ScalarResult (.div d a b) d (if y = 0 then BitVec.allOnes 64 else x / y) s) ∧
     (ready (.divs d a b) → ScalarResult (.divs d a b) d (sdiv x y) s) ∧
     (ready (.rem d a b) → ScalarResult (.rem d a b) d (if y = 0 then x else x % y) s) ∧
     (ready (.rems d a b) → ScalarResult (.rems d a b) d (srem x y) s) ∧
     (ready (.andS d a b) → ScalarResult (.andS d a b) d (x &&& y) s) ∧
     (ready (.orS d a b) → ScalarResult (.orS d a b) d (x ||| y) s) ∧
     (ready (.xorS d a b) → ScalarResult (.xorS d a b) d (x ^^^ y) s) ∧
     (ready (.shl d a b) → ScalarResult (.shl d a b) d (x <<< (y.toNat % 64)) s) ∧
     (ready (.shr d a b) → ScalarResult (.shr d a b) d (x >>> (y.toNat % 64)) s) ∧
     (ready (.sar d a b) → ScalarResult (.sar d a b) d (x.sshiftRight (y.toNat % 64)) s) ∧
     (ready (.slt d a b) → ScalarResult (.slt d a b) d (if x.ult y then 1 else 0) s) ∧
     (ready (.slts d a b) → ScalarResult (.slts d a b) d (if x.slt y then 1 else 0) s) ∧
     (ready (.minU d a b) → ScalarResult (.minU d a b) d (if x.ult y then x else y) s) ∧
     (ready (.mins d a b) → ScalarResult (.mins d a b) d (if x.slt y then x else y) s) ∧
     (ready (.maxU d a b) → ScalarResult (.maxU d a b) d (if x.ult y then y else x) s) ∧
     (ready (.maxs d a b) → ScalarResult (.maxs d a b) d (if x.slt y then y else x) s)) ∧
  (∀ (d a : BitVec 5) (imm : BitVec 14) (s : State),
    let x := s.w.gs a
    let y : U64 := imm.signExtend 64
    let ready (i : Instr) : Prop := Issues i { deps := [d, a] } s
    (ready (.addi d a imm) → ScalarResult (.addi d a imm) d (x + y) s) ∧
    (ready (.andi d a imm) → ScalarResult (.andi d a imm) d (x &&& y) s) ∧
    (ready (.ori d a imm) → ScalarResult (.ori d a imm) d (x ||| y) s) ∧
    (ready (.xori d a imm) → ScalarResult (.xori d a imm) d (x ^^^ y) s) ∧
    (ready (.shli d a imm) → ScalarResult (.shli d a imm) d (x <<< (y.toNat % 64)) s) ∧
    (ready (.shri d a imm) → ScalarResult (.shri d a imm) d (x >>> (y.toNat % 64)) s) ∧
    (ready (.sari d a imm) → ScalarResult (.sari d a imm) d (x.sshiftRight (y.toNat % 64)) s) ∧
    (ready (.slti d a imm) → ScalarResult (.slti d a imm) d (if x.slt y then 1 else 0) s) ∧
    (ready (.popc d a) → ScalarResult (.popc d a) d (BitVec.ofNat 64 (ones x)) s) ∧
    (ready (.clz d a) → ∃ n, IsLeadingZeros x n ∧ ScalarResult (.clz d a) d (BitVec.ofNat 64 n) s)) ∧
  (∀ (d : BitVec 5) (imm : BitVec 19) (s : State),
    (Issues (.li d imm) { deps := [d] } s → ScalarResult (.li d imm) d (imm.signExtend 64) s) ∧
    (Issues (.lis d imm) { deps := [d] } s → ScalarResult (.lis d imm) d ((s.w.gs d <<< 19) ||| imm.setWidth 64) s))

/-! ### Control flow -/

/-- R299, R300, R301, R330, R334, R348 and R372: NOP goes on; B, BC and CALL go to the PC plus 4 times the sign-extended offset modulo
2^60, BC only where its condition of R294 holds; CALL and JR write the link after the target is read, and a misaligned target of JR is ALIGN.
R50 and R343: once every earlier queue entry has taken effect and the wave is quiescent, BRANY, BRALL and BRNONE branch on the
bits of a mask register below VL; until then they wait, charged once. -/
def Obligations.BranchesAndJumps : Prop :=
  (∀ s, Issues .nop {} s → GoesTo .nop (s.w.pc + 4) s) ∧
  (∀ o s, Issues (.br o) {} s → GoesTo (.br o) (target s.w.pc o.toInt) s) ∧
  (∀ c a b o s, c ≠ 7 → Issues (.bc c a b o) { deps := [a, b] } s →
    (Condition c (s.w.gs a) (s.w.gs b) → GoesTo (.bc c a b o) (target s.w.pc o.toInt) s) ∧
    (¬ Condition c (s.w.gs a) (s.w.gs b) → GoesTo (.bc c a b o) (s.w.pc + 4) s)) ∧
  (∀ o s, Issues (.call o) { deps := [31] } s →
    ∃ t, exec (.call o) s = .next t ∧ Writes s t 31 (s.w.pc + 4) ∧ t.w.pc = target s.w.pc o.toInt ∧ t.w.wait = none ∧
      Charged s t 1 0 ∧ OnlyScalars s t) ∧
  (∀ d a s, Issues (.jr d a) { deps := [d, a] } s →
    ((s.w.gs a).toNat % 4 = 0 →
      ∃ t, exec (.jr d a) s = .next t ∧ Writes s t d (s.w.pc + 4) ∧ t.w.pc = s.w.gs a ∧ t.w.wait = none ∧ Charged s t 1 0 ∧
        OnlyScalars s t) ∧
    ((s.w.gs a).toNat % 4 ≠ 0 → CanTrap s → FaultsWith (.jr d a) 1 0 0x06 (s.w.gs a) s)) ∧
  (∀ (m : BitVec 3) (o : BitVec 21) (s : State),
     let bit (i : Nat) : Prop := (s.w.masks[m.toNat]).getLsbD i = true
     let any : Prop := ∃ i, i < s.w.cfg.vl ∧ bit i
     let all : Prop := ∀ i, i < s.w.cfg.vl → bit i
     let ready (i : Instr) : Prop := Issues i { noHandler := true } s
     (Settled s →
       (ready (.brany m o) → (any → GoesTo (.brany m o) (target s.w.pc o.toInt) s) ∧ (¬ any → GoesTo (.brany m o) (s.w.pc + 4) s)) ∧
       (ready (.brall m o) → (all → GoesTo (.brall m o) (target s.w.pc o.toInt) s) ∧ (¬ all → GoesTo (.brall m o) (s.w.pc + 4) s)) ∧
       (ready (.brnone m o) → (¬ any → GoesTo (.brnone m o) (target s.w.pc o.toInt) s) ∧ (any → GoesTo (.brnone m o) (s.w.pc + 4) s))) ∧
     (¬ Settled s → s.w.trp.inh = false →
       (ready (.brany m o) → ∃ t, exec (.brany m o) s = .next t ∧ t.w.wait = some (.issued (.brany m o) 0) ∧ t.w.pc = s.w.pc ∧
         t.w.s = s.w.s ∧ Charged s t 1 0 ∧ OnlyScalars s t)))

/-! ### Traps and their return -/

/-- R238, R355, R241, R357: TRAP takes SWTRAP with its operand as EVAL, DBGBRK takes BRK or, with DBGCTL.ENA, stops the wave; EPC names
the next instruction. ERET goes to EPC with the privilege that PPRIV holds and leaves handler mode; the other fields of ECAUSE stay,
latches are invalid, and with SRC 2 and RSKIP the oldest queue entry is discarded, in a continuation that holds back older ones
(R135) the oldest of its own. -/
def Obligations.SoftwareTrapsAndReturn : Prop :=
  (∀ c s, Issues (.trapS c) {} s → CanTrap s →
    ∃ t, exec (.trapS c) s = .next t ∧ TakesTrap s t 0 0x11 0 0 (c.setWidth 64) (s.w.pc + 4) ∧ TrapLeaves s t ∧
      (NoneEnding s → Charged s t 1 0)) ∧
  (∀ c s, Issues (.dbgbrk c) {} s →
    (s.w.dbg.ena = false → CanTrap s →
      ∃ t, exec (.dbgbrk c) s = .next t ∧ TakesTrap s t 0 0x10 0 0 s.w.pc (s.w.pc + 4) ∧ TrapLeaves s t ∧
        (NoneEnding s → Charged s t 1 0)) ∧
    (s.w.dbg.ena = true →
      ∃ t, exec (.dbgbrk c) s = .next t ∧ t.w.pc = s.w.pc + 4 ∧ t.w.wait = none ∧ t.w.s = s.w.s ∧ Charged s t 1 0 ∧
        OnlyScalarsAnd s t (fun w => { w with dbg := { w.dbg with stopped := true }, latches := [] }))) ∧
  (∀ s, Issues .eret { privBad := !s.w.trp.inh } s →
    ∃ t, exec .eret s = .next t ∧ t.w.pc = BitVec.ofNat 64 (s.w.trp.epc.toNat * 4) ∧ t.w.sup = s.w.trp.ppriv ∧ t.w.wait = none ∧
      t.w.trp = { s.w.trp with inh := false, issue := [], spill := false } ∧ t.w.latches = [] ∧ t.w.s = s.w.s ∧ SameBytes s t ∧
      (s.w.trp.src ≠ 2 ∨ s.w.trp.rskip = false → t.w.vq = s.w.vq ∧ t.w.bud = s.w.bud) ∧
      (s.w.trp.src = 2 → s.w.trp.rskip = true →
        (s.w.heldBack = false → s.w.fetches = [] → t.w.vq = s.w.vq.tail) ∧
        (s.w.heldBack = true → (∀ f ∈ s.w.fetches, f.before = true) →
          t.w.vq = s.w.vq.filter (fun e => e.before) ++ (s.w.vq.filter (fun e => !e.before)).tail)) ∧
      (s.w.ctl.incont = false → s.w.bud.preempt = false → ∀ r ∈ t.w.runs, r.stopped = false))

/-- R286 with R303 and R320: an instruction with a reserved code in any field, one with a bit set in a field that it does not
use, and a word with an unassigned opcode raise ILLOP in the control thread and have no effect; they are not charged. R31: a
word of the block class or the header class raises the AIB trap in the control thread, and a word of the control class raises
it in a block, where the trap is recorded for the lowest VP of the issue step with its word index; R176: a watermark-linked
VGATH or VGATH.C raises ILLOP there. What the rules leave open
in it is the model's choice or reading: log entries 13 and 54. -/
def Obligations.ReservedCodesAndPlacement : Prop :=
  (∀ i s, AtInstruction s → CanTrap s → reservedCode i = true ∨ ¬ IndexNamed i → TrapsAt i 0x01 s.w.pc s) ∧
  (∀ w s, AtInstruction s → CanTrap s → TrapsAt (.unassignedOpcode w) 0x01 s.w.pc s) ∧
  (∀ l p m c s, AtInstruction s → CanTrap s → TrapsAt (.abegin l p m c) 0x13 s.w.pc s) ∧
  (∀ i w s, encode i = some w → reservedCode i = false →
     let op := (w >>> 24).toNat
     let blockClass : Prop := op = 0x48 ∨ op = 0x49 ∨ (0x50 ≤ op ∧ op ≤ 0x8C) ∨ op = 0xC1 ∨ op = 0xC5
     let both : Prop := op = 0x90 ∨ op = 0x91 ∨ op = 0x95
     (AtInstruction s → CanTrap s → blockClass ∨ op = 0x47 → TrapsAt i 0x13 s.w.pc s) ∧
     (∀ x, currentIssue s = some x → ¬ blockClass → ¬ both →
       let linked : Prop := (op = 0x92 ∨ op = 0x93) ∧ w.toNat % 4 = 2
       let traps (c : BitVec 8) : State := { s with w := { s.w with traps := s.w.traps ++
         [{ src := 1, cause := c, iw := x.pos + 1, vp := x.vps.headD 0, val := x.addr, vps := x.vps }] } }
       (¬ linked → exec i s = .next (traps 0x13)) ∧ (linked → exec i s = .next (traps 0x01))))

/-- R210: an opcode outside the role of the wave raises ROLE at issue, before the charge, with no effect. -/
def Obligations.RolesRestrictOpcodes : Prop :=
  ∀ i w s, encode i = some w → reservedCode i = false → IndexNamed i → AtInstruction s → CanTrap s →
    let op := (w >>> 24).toNat
    let role := s.w.hdr.role s.w.member
    let fetches : Prop := op = 0x45 ∨ op = 0x46 ∨ (0x4B ≤ op ∧ op ≤ 0x4F)
    let vectorMemory : Prop := 0x91 ≤ op ∧ op ≤ 0x98
    let copies : Prop := op = 0xA0 ∨ op = 0xA1
    let matrix : Prop := 0xB0 ≤ op ∧ op ≤ 0xB9
    ((fetches ∨ vectorMemory) → role = 1 ∨ role = 2 → TrapsAt i 0x03 s.w.pc s) ∧
    (op = 0x90 → role = 1 → TrapsAt i 0x03 s.w.pc s) ∧
    (copies → role = 2 ∨ role = 3 → TrapsAt i 0x03 s.w.pc s) ∧
    (matrix → role = 1 ∨ role = 3 → TrapsAt i 0x03 s.w.pc s)

/-- R353, R321, R241, R360, R361, R359, R211: outside supervisor privilege a control register numbered 0x800 or more, and TLBINV, raise
PRIV; so does ERET outside handler mode. A matrix instruction other than MACQ by a wave
that does not own the unit raises NOOWN. -/
def Obligations.PrivilegeAndOwnership : Prop :=
  ∀ s, AtInstruction s → CanTrap s →
    (s.w.sup = false →
      (∀ d (c : BitVec 12), 0x800 ≤ c.toNat → assignedCr c = true → TrapsAt (.crrd d c) 0x04 s.w.pc s ∧ TrapsAt (.crwr d c) 0x04 s.w.pc s) ∧
      (∀ a, TrapsAt (.lanepwrWrite a) 0x04 s.w.pc s ∧ TrapsAt (.trapvecWrite a) 0x04 s.w.pc s ∧ TrapsAt (.tokrateWrite a) 0x04 s.w.pc s ∧
        TrapsAt (.tokdepthWrite a) 0x04 s.w.pc s ∧ TrapsAt (.dbgctlWrite a) 0x04 s.w.pc s) ∧
      (∀ a b, TrapsAt (.tlbinvPage a b) 0x04 s.w.pc s ∧ TrapsAt (.tlbinvAsid b) 0x04 s.w.pc s ∧ TrapsAt .tlbinvAll 0x04 s.w.pc s)) ∧
    TrapsAt .eret 0x04 s.w.pc s ∧
    (s.w.hdr.role s.w.member = 0 ∨ s.w.hdr.role s.w.member = 2 → s.myCluster.owner ≠ some s.w.id →
      ∀ i w, encode i = some w → reservedCode i = false → i ≠ .macq → 0xB0 ≤ (w >>> 24).toNat ∧ (w >>> 24).toNat ≤ 0xB9 →
        TrapsAt i 0x0C s.w.pc s)

/-- R240, R237: in handler mode, or with no handler, a synchronous trap is a double trap: no handler is entered. While anything of the wave
is in flight its cause and value are kept; the trap registers, the PC and the privilege stay. So it is for the trap that TRAP raises, for
one of a check of R286 (a reserved code), and for one of an access (an LD that faults, charged). From then on the wave issues nothing: its
control thread and its lanes take no step. -/
def Obligations.DoubleTrap : Prop :=
  (∀ s : State, s.w.trp.inh = true ∨ (s.die s.w.die).trapvec = 0 → s.w.inFlight = true →
    let doubles (t : State) (cause : BitVec 8) (val : U64) (ticks sectors : Nat) : Prop :=
      t.w.doubleCause = some (cause, val) ∧ t.w.pc = s.w.pc ∧ t.w.wait = none ∧ t.w.s = s.w.s ∧ Charged s t ticks sectors ∧
      OnlyScalarsAnd s t (fun w => { w with doubleCause := some (cause, val), leaving := false })
    (∀ c, Issues (.trapS c) {} s → ∃ t, exec (.trapS c) s = .next t ∧ doubles t 0x11 (c.setWidth 64) 1 0) ∧
    (∀ i, AtInstruction s → reservedCode i = true → ∃ t, exec i s = .next t ∧ doubles t 0x01 s.w.pc 0 0) ∧
    (∀ (d a : BitVec 5) (z : BitVec 2) (sg : BitVec 1) (o : BitVec 11) (c : BitVec 8),
      let va := s.w.gs a + o.signExtend 64
      let n := 2 ^ z.toNat
      let sec : Nat := if inAperture va.toNat then 0 else 1
      Issues (.ld d a z sg o) { deps := [d, a], sectors := sec, cls := some 2, vas := walked false n va } s →
      resolve s Acc.load false va n = .error c → ∃ t, exec (.ld d a z sg o) s = .next t ∧ doubles t c va 1 sec)) ∧
  (∀ s : State, s.w.doubleCause.isSome = true →
    controlStep s = .refused (.notEnabled "CONTROL") ∧ ∀ j, laneStep s j = .refused (.notEnabled "LANE"))

/-! ### Control registers -/

/-- R321 with R353, R354 and the field maps R12, R57, R60 to R62, R65, R69, R70, R111, R115, R125, R133, R185, R191, R197,
R223, R234, R235 and R256: CRRD puts a register's fields into sd, reserved fields as 0; where R354 asks it, once the wave has
settled. R354 and R116: an access to VL, VCFG, MAXVL, VSTART, FFLAGS, WSTAT, NZCNT, REGQ, REGUSE or WM0 to WM7 outside handler
mode waits until every earlier queue entry has taken effect and the wave is quiescent; charged once, it goes on at the same
instruction. What the rules leave open in it is the model's choice or reading: log entry 14. -/
def Obligations.ControlRegisterReads : Prop :=
  (∀ (d : BitVec 5) (c : BitVec 12) (s : State), assignedCr c = true →
     Issues (.crrd d c) { deps := [d], ticks := 2, privBad := decide (0x800 ≤ c.toNat) && !s.w.sup } s →
     (Settled s ∨ s.w.trp.inh = true) →
     ReadsRegister (.crrd d c) d (fun s =>
       let w := s.w
       if c = 0x000 then BitVec.ofNat 64 w.cfg.vl
       else if c = 0x001 then fields [(0, w.cfg.nregc.toNat), (2, w.cfg.ewc.toNat), (4, w.cfg.blkc.toNat), (8, w.hdr.log2l),
         (16, w.cfg.nreg), (32, w.cfg.share)]
       else if c = 0x002 then BitVec.ofNat 64 w.cfg.maxvl
       else if c = 0x003 then w.cfg.vstart.setWidth 64
       else if c = 0x004 then w.cfg.fflags.setWidth 64
       else if c = 0x005 then w.cfg.frm.setWidth 64
       else if c = 0x006 then fields [(2, flag w.ctl.rdrel), (3, flag w.ctl.latinv), (4, flag w.ctl.short), (5, flag w.ctl.ntrans),
         (6, flag w.ctl.dualfix), (14, flag w.ctl.incont), (15, flag w.ctl.serial)]
       else if c = 0x007 then fields [(0, flag w.ctl.rdreltrap), (1, flag w.ctl.lattrap), (2, flag w.ctl.dual)]
       else if c = 0x008 then w.cfg.nzcnt.setWidth 64
       else if c = 0x009 then w.cfg.pvoff
       else if c = 0x010 then w.bud.ibgt
       else if c = 0x011 then w.bud.mbgt
       else if c = 0x012 then w.bud.cidx.setWidth 64
       else if c = 0x013 then w.hdr.dw7
       else if c = 0x014 then w.bud.xpc.setWidth 64
       else if c = 0x015 then w.bud.xcause.setWidth 64
       else if c = 0x020 then w.wid
       else if c = 0x021 then BitVec.ofNat 64 (w.hdr.dw1.toNat % 2 ^ 36)
       else if c = 0x023 then fields [(0, w.die), (8, (s.die w.die).encl), (16, s.ndie)]
       else if c = 0x024 then fields [(0, w.cl), (7, flag s.myCluster.spare)]
       else if c = 0x030 then fields [(0, w.cfg.quota), (16, w.cfg.floor), (32, w.cfg.qmax), (48, s.myTeam.tfree)]
       else if c = 0x031 then fields [(0, (w.vregs.filter (fun e => e.2.st = .live)).length),
         (8, (w.vregs.filter (fun e => e.2.st = .spilled)).length), (32, s.myCluster.pool), (48, w.hold)]
       else if 0x040 ≤ c.toNat ∧ c.toNat ≤ 0x047 then
         let m := spGet ({} : Wm) w.wm (c.toNat - 0x040)
         fields [(3, m.waddr.toNat / 8), (60, m.esz.toNat), (62, flag m.cur), (63, flag m.v)]
       else if c = 0x800 then s.myCluster.qon.setWidth 64
       else if c = 0x802 then fields [(2, (s.die w.die).trapvec.toNat)]
       else if c = 0x803 then fields [(2, w.trp.epc.toNat)]
       else if c = 0x804 then fields [(0, w.trp.cause.toNat), (16, w.trp.vp.toNat), (40, w.trp.iw.toNat), (58, w.trp.src.toNat),
         (61, flag w.trp.rskip), (62, flag w.trp.ppriv), (63, flag w.trp.inh)]
       else if c = 0x805 then w.trp.eval
       else if c = 0x810 then s.myCluster.rate.value
       else if c = 0x811 then s.myCluster.depth.value
       else fields [(0, w.dbg.wmode.toNat), (2, w.dbg.baddr.toNat), (61, flag w.dbg.single), (62, flag w.dbg.laneMode), (63, flag w.dbg.ena)]) s) ∧
  (∀ (d : BitVec 5) (c : BitVec 12) (s : State), s.w.trp.inh = false → ¬ Settled s →
     (c.toNat ≤ 0x004 ∨ c = 0x006 ∨ c = 0x008 ∨ c = 0x030 ∨ c = 0x031 ∨ (0x040 ≤ c.toNat ∧ c.toNat ≤ 0x047)) →
     (Issues (.crrd d c) { deps := [d], ticks := 2 } s →
       ∃ t, exec (.crrd d c) s = .next t ∧ t.w.wait = some (.issued (.crrd d c) 0) ∧ t.w.pc = s.w.pc ∧ t.w.s = s.w.s ∧ Charged s t 2 0 ∧
         OnlyScalars s t) ∧
     (Waits (.crrd d c) 0 s → ∃ t, exec (.crrd d c) s = .next t ∧ t = s))

/-- R353, R354, R4, R5, R321 with R61, R60, R111, R115, R223 and R235: CRWR writes the RW fields, clears the RS fields that it
writes as 0, changes nothing in a register marked ignored, and raises ILLOP for a non-zero bit in a field that asks it. What
the rules leave open in it is the model's choice or reading: log entry 14. -/
def Obligations.ControlRegisterWrites : Prop :=
  (∀ (a : BitVec 5) (c : BitVec 12) (s : State), wellFormed (.crwr a c) = true →
    Issues (.crwr a c) { deps := [a], ticks := 2, privBad := decide (0x800 ≤ c.toNat) && !s.w.sup } s →
    (Settled s ∨ s.w.trp.inh = true) →
    let v := s.w.gs a
    let b (k : Nat) : Bool := v.getLsbD k
    (c = 0x003 → v.toNat < 2 ^ 6 → WritesRegister (.crwr a c) (fun w => { w with cfg := { w.cfg with vstart := v.setWidth 6 } }) s) ∧
    (c = 0x005 → v.toNat < 2 ^ 2 → WritesRegister (.crwr a c) (fun w => { w with cfg := { w.cfg with frm := v.setWidth 2 } }) s) ∧
    (c = 0x006 → WritesRegister (.crwr a c) (fun w => { w with ctl := { w.ctl with
      rdrel := w.ctl.rdrel && b 2, latinv := w.ctl.latinv && b 3, short := w.ctl.short && b 4, ntrans := w.ctl.ntrans && b 5
      dualfix := w.ctl.dualfix && b 6 } }) s) ∧
    (c = 0x007 → v.toNat < 2 ^ 3 → WritesRegister (.crwr a c) (fun w => { w with ctl := { w.ctl with
      rdreltrap := b 0, lattrap := b 1, dual := b 2 } }) s) ∧
    (c = 0x803 → WritesRegister (.crwr a c) (fun w => { w with trp := { w.trp with epc := v.extractLsb' 2 58 } }) s) ∧
    (c = 0x804 → WritesRegister (.crwr a c) (fun w => { w with trp := { w.trp with rskip := b 61, ppriv := b 62 } }) s) ∧
    (c ≠ 0x003 → c ≠ 0x005 → c ≠ 0x006 → c ≠ 0x007 → c ≠ 0x803 → c ≠ 0x804 → WritesRegister (.crwr a c) (fun w => w) s) ∧
    ((c = 0x003 ∧ 2 ^ 6 ≤ v.toNat) ∨ (c = 0x005 ∧ 2 ^ 2 ≤ v.toNat) ∨ (c = 0x007 ∧ 2 ^ 3 ≤ v.toNat) →
      CanTrap s → RefusesValue (.crwr a c) 2 s)) ∧
  (∀ (r : BitVec 5) (s : State), (Settled s ∨ s.w.trp.inh = true) →
    (Issues (.fflagsAccess 0 r) { deps := [r], ticks := 2 } s →
      ReadsRegister (.fflagsAccess 0 r) r (fun s => s.w.cfg.fflags.setWidth 64) s) ∧
    (Issues (.fflagsAccess 1 r) { deps := [r], ticks := 2 } s →
      WritesRegister (.fflagsAccess 1 r) (fun w => { w with cfg := { w.cfg with fflags := w.cfg.fflags &&& (s.w.gs r).setWidth 5 } }) s))

/-- R102, R101, R234, R191, R256: a CRWR of LANEPWR keeps the bit of a quad that a resident wave uses and takes the others;
TRAPVEC is the die's; TOKRATE and TOKDEPTH install the tenant's entry with a SYNC of 0 stored as 1, which a CRRD then returns;
DBGCTL takes its fields; a reserved bit raises ILLOP. What the rules leave open in it is the model's choice or reading: log
entry 58. -/
def Obligations.PrivilegedRegisterWrites : Prop :=
  ∀ (a : BitVec 5) (s : State), Canonical s → s.w.sup = true →
    let v := s.w.gs a
    let ready (i : Instr) : Prop := Issues i { deps := [a], ticks := 2 } s
    (ready (.lanepwrWrite a) → v.toNat < 2 ^ 4 → WritesShared (.lanepwrWrite a) (fun t =>
      t.dies = s.dies ∧ (∀ q < 4, t.myCluster.qon.getLsbD q = (v.getLsbD q || (s.myCluster.qon.getLsbD q &&
        (s.residents s.w.die s.w.cl).any (fun w => decide (w.base < 4 * q + 4) && decide (4 * q < w.base + w.lanes))))) ∧
      t.myCluster = { s.myCluster with qon := t.myCluster.qon, qpend := t.myCluster.qpend } ∧
      (∀ d c, clKey d c ≠ clKey s.w.die s.w.cl → t.cluster d c = s.cluster d c)) s) ∧
    (ready (.lanepwrWrite a) → 2 ^ 4 ≤ v.toNat → CanTrap s → RefusesValue (.lanepwrWrite a) 2 s) ∧
    (ready (.trapvecWrite a) → v.toNat < 2 ^ 60 → WritesShared (.trapvecWrite a) (fun t =>
      t.clusters = s.clusters ∧ t.die s.w.die = { s.die s.w.die with trapvec := v.extractLsb' 2 58 } ∧
      (∀ d, d ≠ s.w.die → t.die d = s.die d)) s) ∧
    (ready (.trapvecWrite a) → 2 ^ 60 ≤ v.toNat → CanTrap s → RefusesValue (.trapvecWrite a) 2 s) ∧
    (ready (.tokrateWrite a) → WritesShared (.tokrateWrite a) (fun t =>
      t.dies = s.dies ∧ t.myCluster.rate.value = (if v.toNat % 2 ^ 16 = 0 then v.toNat + 1 else v.toNat) ∧
      t.myCluster = { s.myCluster with rate := t.myCluster.rate } ∧
      (∀ d c, clKey d c ≠ clKey s.w.die s.w.cl → t.cluster d c = s.cluster d c)) s) ∧
    (ready (.tokdepthWrite a) → WritesShared (.tokdepthWrite a) (fun t =>
      t.dies = s.dies ∧ t.myCluster.depth.value = (if v.toNat % 2 ^ 16 = 0 then v.toNat + 1 else v.toNat) ∧
      t.myCluster = { s.myCluster with depth := t.myCluster.depth } ∧
      (∀ d c, clKey d c ≠ clKey s.w.die s.w.cl → t.cluster d c = s.cluster d c)) s) ∧
    (ready (.dbgctlWrite a) → v.getLsbD 60 = false → v.toNat % 4 ≠ 3 → WritesRegister (.dbgctlWrite a) (fun w =>
      { w with dbg := { w.dbg with ena := v.getLsbD 63, laneMode := v.getLsbD 62, single := v.getLsbD 61
                                   baddr := v.extractLsb' 2 58, wmode := v.setWidth 2 } }) s) ∧
    (ready (.dbgctlWrite a) → v.getLsbD 60 = true ∨ v.toNat % 4 = 3 → CanTrap s → RefusesValue (.dbgctlWrite a) 2 s)

/-- R133, R352, R56, R57 and R375: CONTSET sets CIDX, or raises ILLOP above NENT; PSETVL writes the die's share of n to sd and
its first index to PVOFF, and n and 0 in a wave launched with PKG 0. What the rules leave open in it is the model's choice or
reading: log entry 14. -/
def Obligations.ContinuationIndexAndShares : Prop :=
  (∀ (k : BitVec 4) (s : State), Issues (.contset k) {} s →
    (k.toNat ≤ s.w.hdr.nent →
      ∃ t, exec (.contset k) s = .next t ∧ t.w.pc = s.w.pc + 4 ∧ t.w.wait = none ∧ t.w.s = s.w.s ∧ t.w.bud.cidx = k ∧
        Charged { s with w := { s.w with bud := { s.w.bud with cidx := k } } } t 1 0 ∧ OnlyScalars s t) ∧
    (s.w.hdr.nent < k.toNat → CanTrap s → RefusesValue (.contset k) 1 s)) ∧
  (∀ (d a : BitVec 5) (s : State), Issues (.psetvl d a) { deps := [d, a] } s →
    let n := (s.w.gs a).toNat
    let before (k : Nat) : Nat := (List.range k).foldl (fun x j => x + (s.die j).encl) 0
    let off (k : Nat) : Nat := n * before k / before s.ndie
    let share : Nat := if s.w.hdr.pkg then off (s.w.die + 1) - off s.w.die else n
    let first : Nat := if s.w.hdr.pkg then off s.w.die else 0
    ∃ t, exec (.psetvl d a) s = .next t ∧ Writes s t d (BitVec.ofNat 64 share) ∧ t.w.pc = s.w.pc + 4 ∧ t.w.wait = none ∧ Charged s t 1 0 ∧
      OnlyScalarsAnd s t (fun w => { w with cfg := { w.cfg with pvoff := BitVec.ofNat 64 first } }))

/-! ### Scalar memory -/

/-- R360, R385, R327, R168, R170, R191: an LD, ST or AMO whose address passes its checks is sent on the VEC path to the target of its
address; the result of an LD or AMO is outstanding until it lands; it takes 1 tick, and 1 sector outside the scratchpad. -/
def Obligations.ScalarAccessesAreSent : Prop :=
  ∀ (d a b : BitVec 5) (z : BitVec 2) (sg : BitVec 1) (o : BitVec 11) (op : BitVec 4) (sc : BitVec 3) (ar : BitVec 2) (s : State) (g : Target),
    let va := s.w.gs a + o.signExtend 64
    let at0 := s.w.gs a
    let n := 2 ^ z.toNat
    let sec (v : U64) : Nat := if inAperture v.toNat then 0 else 1
    let lands : Dst := if d = 0 then .none else .sreg d
    (Issues (.ld d a z sg o) { deps := [d, a], sectors := sec va, cls := some 2, vas := walked false n va } s →
      resolve s Acc.load false va n = .ok g →
      Sends (.ld d a z sg o) (sec va) (fun w => { w with loads := w.loads ++
        [{ sseq := s.sseq, path := .vec, tgt := g, size := n, sgn := sg == 1, dst := lands, va := va }] }) s) ∧
    (Issues (.st d a z o) { deps := [d, a], sectors := sec va, cls := some 2, vas := walked false n va } s →
      resolve s Acc.store false va n = .ok g →
      Sends (.st d a z o) (sec va) (fun w => { w with reqs := w.reqs ++
        [{ sseq := s.sseq, grp := s.sseq, path := .vec, tgt := g, size := n, op := .store (s.w.gs d), va := va }] }) s) ∧
    (Issues (.amo d a b op sc ar) { deps := [d, a, b], sectors := sec at0, cls := some 2, vas := walked false 8 at0 } s →
      resolve s (atomicAcc sc.toNat op.toNat) false at0 8 = .ok g → s.poisonedAt g = false →
      Sends (.amo d a b op sc ar) (sec at0) (fun w => { w with reqs := w.reqs ++
        [{ sseq := s.sseq, grp := s.sseq, path := .vec, tgt := g, size := 8, op := .bank op.toNat (s.w.gs b) (s.w.gs d), dst := lands
           rel := ar.getLsbD 1, acq := ar.getLsbD 0, drop := ar.getLsbD 0 && decide (2 ≤ sc.toNat), va := at0 }] }) s)

/-- R146, R147, R163 and R286, check 11: an address with bits [63:60] not zero raises PAGE, one that is not aligned to its
access raises ALIGN, a scratchpad offset past the team's scratchpad raises PAGE, and a fault of translation its cause; EVAL is
the address, and the access has no effect but its charge. What the rules leave open in it is the model's choice or reading:
log entry 13. -/
def Obligations.AddressChecks : Prop :=
  ∀ (d a : BitVec 5) (z : BitVec 2) (sg : BitVec 1) (o : BitVec 11) (s : State), CanTrap s →
    let va := s.w.gs a + o.signExtend 64
    let x := va.toNat
    let n := 2 ^ z.toNat
    let sec : Nat := if inAperture x then 0 else 1
    let gate : Gate := { deps := [d, a], sectors := sec, cls := some 2, vas := walked false n va }
    let faults (c : BitVec 8) : Prop :=
      (Issues (.ld d a z sg o) gate s → FaultsAt (.ld d a z sg o) sec c va s) ∧
      (Issues (.st d a z o) gate s → FaultsAt (.st d a z o) sec c va s)
    (2 ^ 60 ≤ x → faults 0x05) ∧
    (x < 2 ^ 60 → 2 ^ 60 - 2 ^ 40 ≤ x →
      (s.myTeam.kib * 1024 ≤ x % 2 ^ 40 → faults 0x05) ∧
      (x % 2 ^ 40 < s.myTeam.kib * 1024 → x % n ≠ 0 → faults 0x06)) ∧
    (x < 2 ^ 60 - 2 ^ 40 →
      (x % n ≠ 0 → faults 0x06) ∧
      (∀ c, x % n = 0 → translate s s.w.asid s.w.sup Acc.load x = .error c →
        Issues (.ld d a z sg o) gate s → FaultsAt (.ld d a z sg o) sec c va s) ∧
      (∀ c, x % n = 0 → translate s s.w.asid s.w.sup Acc.store x = .error c →
        Issues (.st d a z o) gate s → FaultsAt (.st d a z o) sec c va s))

/-- R161 to R163: an access is given an address of package memory only through a leaf that grants every right it asks, and to a wave
without supervisor privilege only through a leaf with U; the physical address is the leaf's PA[45:13] times 8192 plus the offset in the
page. Where neither a cached translation nor a walk's end is at hand, the leaf is the one that the walk finds, valid, not of a network window,
aligned to its page and inside installed memory. What the rules leave open in it is the model's choice or reading: log entries 6 and 7. -/
def Obligations.TranslationGuardsMemory : Prop :=
  ∀ (s : State) (asid : BitVec 16) (sup : Bool) (acc : Acc) (va pa : Nat), translate s asid sup acc va = .ok (.pkg pa) →
    ∃ e k, lookup s asid va = .ok (e, k) ∧ pa = e / 2 ^ 13 % 2 ^ 33 * 8192 + va % 2 ^ k ∧ e / 2 ^ 7 % 2 = 0 ∧
      (sup = false → e / 2 ^ 5 % 2 = 1) ∧ (acc.r = true → e / 2 ^ 2 % 2 = 1) ∧ (acc.w = true → e / 2 ^ 3 % 2 = 1) ∧
      (acc.x = true → e / 2 ^ 4 % 2 = 1) ∧
      (delivered s asid va = none → tlbLookup s.myCluster asid va = none →
        walk s asid va = .ok (e, k) ∧ (k = 39 ∨ k = 29 ∨ k = 19) ∧ e % 2 = 1 ∧ e / 2 % 2 = 1 ∧ pa % 2 ^ k = va % 2 ^ k ∧ pa < s.installed)

/-- R449, R450: WAITADDR of a location of package memory that differs from sb, with nothing of the wave in flight, completes
with the doubleword and drops L1; while the location is equal to sb it waits, and an address that is misaligned, or in the
scratchpad, faults. What the rules leave open in it is the model's choice or reading: log entry 57. -/
def Obligations.WaitaddrReadsUntilChanged : Prop :=
  ∀ (d a b : BitVec 5) (s : State) (pa : Nat), 
    Issues (.waitaddr d a b) { deps := [d, a, b], mem := true, vas := walked false 8 (s.w.gs a) } s → NothingOpen s → LinksUp s →
    let va := s.w.gs a
    let v : U64 := BitVec.ofNat 64 (Memory.readN s.mem pa 8)
    (va.toNat < 2 ^ 60 - 2 ^ 40 → va.toNat % 8 = 0 → translate s s.w.asid s.w.sup Acc.load va.toNat = .ok (.pkg pa) → s.poisoned pa = false →
      (v ≠ s.w.gs b → spWf ({} : Cluster) 0 s.clusters = true → Completes (.waitaddr d a b) 1 (fun t =>
        Writes s t d v ∧ t.myCluster = { s.myCluster with l1 := [] }) s) ∧
      (v = s.w.gs b → StartsWaiting (.waitaddr d a b) 1 0 s)) ∧
    (CanTrap s → va.toNat < 2 ^ 60 → va.toNat % 8 ≠ 0 → FaultsAt (.waitaddr d a b) 0 0x06 va s) ∧
    (CanTrap s → 2 ^ 60 - 2 ^ 40 ≤ va.toNat → va.toNat < 2 ^ 60 → va.toNat % 8 = 0 → FaultsAt (.waitaddr d a b) 0 0x07 va s)

/-- R178 to R180, R359, R454, R177: a FENCE or XFENCE of a settled wave with nothing in flight completes; an ACQUIRE fence at scope DIE
or wider drops the cluster's L1, an IFETCH fence the instruction caches of its own cluster at scope WAVE or CLUSTER, of every cluster of its
die at DIE and of the package beyond; one whose wave is not settled waits, charged once, and so does one whose accesses are not performed.
R390, R165: TLBINV by a supervisor whose stores are all at their homes, with no walk in progress, drops in every cluster the cached
translations of the page, of the ASID without the global ones, or all, with the walker's cached tables of the ASID, or all; each form waits
while one of its stores is not at its home, or stands in the vector queue. What the rules leave open in it is the model's choice or reading:
log entry 22. -/
def Obligations.FencesAndTlbinv : Prop :=
  (∀ (sc : BitVec 3) (k : BitVec 2) (f u : BitVec 5) (s : State), spWf ({} : Cluster) 0 s.clusters = true → s.w.cl < 64 →
     let gate (ticks : Nat) : Gate := { ticks := ticks, mem := true }
     let within (d c : Nat) : Prop := (sc.toNat ≤ 1 → d = s.w.die ∧ c = s.w.cl) ∧ (sc = 2 → d = s.w.die)
     (Settled s → NothingOpen s →
       (Issues (.fence sc k) (gate 2) s → Completes (.fence sc k) 2 (fun t =>
         t.w.s = s.w.s ∧ (k = 1 → 2 ≤ sc.toNat → t.myCluster = { s.myCluster with l1 := [] }) ∧
         (k = 3 → ∀ d c, c < 64 → within d c → (t.cluster d c).icache = [] ∧ (t.cluster d c).tcache = []) ∧
         (k ≠ 1 → k ≠ 3 → t.clusters = s.clusters)) s) ∧
       (Issues (.xfence sc f u) (gate 4) s → Completes (.xfence sc f u) 4 (fun t =>
         t.w.s = s.w.s ∧ (2 ≤ sc.toNat → u.getLsbD 0 = true → t.myCluster = { s.myCluster with l1 := [] }) ∧
         (u.getLsbD 0 = false → t.clusters = s.clusters)) s)) ∧
     (¬ Settled s → s.w.trp.inh = false →
       (Issues (.fence sc k) (gate 2) s → StartsWaiting (.fence sc k) 2 0 s) ∧
       (Issues (.xfence sc f u) (gate 4) s → StartsWaiting (.xfence sc f u) 4 0 s)) ∧
     (Settled s →
       (s.w.reqs ≠ [] → k ≠ 1 → Issues (.fence sc k) (gate 2) s → StartsWaiting (.fence sc k) 2 1 s) ∧
       (s.w.loads ≠ [] → (∀ l ∈ s.w.loads, l.linked = none) → k = 1 → Issues (.fence sc k) (gate 2) s → StartsWaiting (.fence sc k) 2 1 s) ∧
       ((∃ r ∈ s.w.reqs, r.path = .vec) → f.getLsbD 0 = true → Issues (.xfence sc f u) (gate 4) s → StartsWaiting (.xfence sc f u) 4 1 s))) ∧
  (∀ (a b : BitVec 5) (s : State), s.w.sup = true → Canonical s →
     let gate (deps : List (BitVec 5)) : Gate := { deps := deps, ticks := 2, mem := true }
     let drops (i : Instr) (p : TlbEntry → Bool) (q : BitVec 16 → Bool) : Prop :=
       ∃ t, exec i s = .next t ∧ t.w.pc = s.w.pc + 4 ∧ t.w.wait = none ∧ Charged s t 2 0 ∧ SameBytes s t ∧ t.w.s = s.w.s ∧
         (∀ d c, t.cluster d c = { s.cluster d c with
           tlb := (s.cluster d c).tlb.filter (fun e => !p e), walker := (s.cluster d c).walker.filter (fun e => !q e.asid)
           misses := (t.cluster d c).misses }) ∧
         ∀ d c, ∀ m ∈ (t.cluster d c).misses, m ∈ (s.cluster d c).misses ∧
           ∀ e k, m.done = some (.leaf e k) → p ⟨m.asid, m.region * 2 ^ 19 / 2 ^ k, k, BitVec.ofNat 64 e⟩ = false
     let page (e : TlbEntry) : Bool := decide (e.vpage = (s.w.gs a).toNat % 2 ^ 60 / 2 ^ e.bits) &&
       (e.asid == (s.w.gs b).setWidth 16 || decide (e.leaf.toNat / 2 ^ 6 % 2 = 1))
     let tagged (e : TlbEntry) : Bool := e.asid == (s.w.gs b).setWidth 16 && decide (e.leaf.toNat / 2 ^ 6 % 2 = 0)
     let own (x : BitVec 16) : Bool := x == (s.w.gs b).setWidth 16
     let noStores : Prop := s.w.reqs = [] ∧ (s.w.trp.inh = true ∨ (QueueEmpty s ∧ s.w.runs = []))
     let noWalks : Prop := ∀ c ∈ s.clusters, ∀ m ∈ c.2.misses, m.done.isSome = true
     let queued : Prop := s.w.trp.inh = false ∧ s.w.heldBack = false ∧ ∃ e ∈ s.w.vq, opOf e.word = 0x91
     (noStores → noWalks →
       (Issues (.tlbinvPage a b) (gate [a, b]) s → drops (.tlbinvPage a b) page own) ∧
       (Issues (.tlbinvAsid b) (gate [b]) s → drops (.tlbinvAsid b) tagged own) ∧
       (Issues .tlbinvAll (gate []) s → drops .tlbinvAll (fun _ => true) (fun _ => true))) ∧
     (s.w.reqs ≠ [] ∨ queued →
       (Issues (.tlbinvPage a b) (gate [a, b]) s → StartsWaiting (.tlbinvPage a b) 2 s.sseq s) ∧
       (Issues (.tlbinvAsid b) (gate [b]) s → StartsWaiting (.tlbinvAsid b) 2 s.sseq s) ∧
       (Issues .tlbinvAll (gate []) s → StartsWaiting .tlbinvAll 2 s.sseq s)))

/-! ### The end of a wave, yielding, launching and topping up -/

/-- R358, R205, R209: EXIT of a wave with no block running, no matrix work, no load and no atomic in flight ends it at no
charge: it leaves the cluster, its queue, markers, VPs and registers go, the matrix unit is not its own any more, and its
stores still complete; memory stays where another member is resident or none is left. With a block that runs, matrix work, a load, a
reply or an atomic in flight it discards its queue and waits, at no charge. What the rules leave open in it is the model's choice or
reading: log entry 57. -/
def Obligations.ExitEndsTheWave : Prop :=
  ∀ s : State, Canonical s → Issues .exitW { ticks := 0 } s →
    let quiet : Prop := s.w.runs = [] ∧ s.w.offers = none ∧ s.w.mat = [] ∧ s.w.loads = [] ∧ s.w.replies = [] ∧ ∀ r ∈ s.w.reqs, r.op.isBank = false
    let runsOn : Prop := s.w.trp.inh = false ∧ s.w.traps = [] ∧ ∃ v id p q g r, (v, VpSt.run id p q g false) ∈ s.w.vps ∧
      s.w.run? id = some r ∧ r.stopped = false
    (quiet → ∃ t, exec .exitW s = .next t ∧ t.w.place = .gone s.w.die s.w.cl ∧ t.w.active = false ∧ t.w.vq = [] ∧ t.w.markers = [] ∧
      t.w.vps = [] ∧ t.w.vregs = [] ∧ t.w.reqs = s.w.reqs ∧ t.w.bud = s.w.bud ∧ t.dies = s.dies ∧
      (t.cluster s.w.die s.w.cl).owner ≠ some s.w.id ∧
      ((∃ w ∈ s.others, w.team = s.w.team ∧ w.isResident = true) ∨ s.myTeam.left ≤ 1 → t.others = s.others ∧ SameBytes s t)) ∧
    (runsOn ∨ s.w.offers.isSome = true ∨ s.w.mat ≠ [] ∨ s.w.loads ≠ [] ∨ s.w.replies ≠ [] ∨ (∃ r ∈ s.w.reqs, r.op.isBank = true) →
      ∃ t, exec .exitW s = .next t ∧ t.w.wait = some (.issued .exitW 0) ∧ t.w.pc = s.w.pc ∧ t.w.vq = [] ∧ t.w.fetches = [] ∧ t.w.markers = [] ∧
        t.w.s = s.w.s ∧ t.w.bud = s.w.bud ∧ SameBytes s t ∧
        t = { s with w := { s.w with wait := t.w.wait, vq := [], fetches := [], markers := [], vps := t.w.vps, runs := t.w.runs
                                     frontier := [], serialVp := none, bud := t.w.bud } } ∧
        ∀ v x, (v, x) ∈ t.w.vps → (v, x) ∈ s.w.vps ∧ ∃ id p q g, x = .run id p q g false)

/-- R137, R138, R209, R456: YIELD of a wave whose lanes are done and that has nothing in flight, once its save area can be
written, puts the wave on its die's resume list with its resume PC, from sa or XPC, and records its remainders; it is not
charged. While it has something in flight it waits. A resume PC that is not word-aligned raises ALIGN. What the rules leave open in it is
the model's choice or reading: log entries 15 and 20. -/
def Obligations.YieldSavesTheWave : Prop :=
  ∀ (a : BitVec 5) (s : State), Issues (.yieldW a) { noHandler := true, deps := [a], ticks := 0 } s →
    let pc : U64 := if a = 0 then s.w.bud.xpc.setWidth 64 else s.w.gs a
    let rest (b : U64) : U64 := if s.w.ctl.incont = true ∨ b.toInt < 0 then 0 else b
    let s0 : State := { s with w := { s.w with wait := none, savePc := pc
                                               bud := { s.w.bud with remT := rest s.w.bud.ibgt, remS := rest s.w.bud.mbgt } } }
    (pc.toNat % 4 = 0 → s.w.runs = [] → NothingOpen s → s.w.replies = [] → s.w.markers = [] → s.w.offers = none → s.w.fence = none →
      LinksUp s → s.w.trp.inh = false → (∃ w ∈ s.others, w.team = s.w.team ∧ w.isResident = true) → (saveContext s0 pc).isOk = true →
      ∃ t, exec (.yieldW a) s = .next t ∧ t.w.die = s.w.die ∧ t.w.isSaved = true ∧ t.w.pc = pc ∧ t.w.active = false ∧ t.w.wait = none ∧
        t.w.bud.remT = rest s.w.bud.ibgt ∧ t.w.bud.remS = rest s.w.bud.mbgt ∧
        ∀ s1, saveContext s0 pc = .ok s1 → t.w.place = .saved s.w.die (s1.die s1.w.die).orders ∧ t.w.s = s1.w.s ∧ t.mem = s1.mem ∧
          t.others = s1.others) ∧
    (pc.toNat % 4 = 0 → s.w.reqs ≠ [] → s.w.trp.inh = false → s.w.runs = [] → StartsWaiting (.yieldW a) 0 0 s) ∧
    (pc.toNat % 4 ≠ 0 → CanTrap s → FaultsWith (.yieldW a) 0 0 0x06 pc s)

/-- R140: carves taken one after another from a budget conserve it, and each is at most its quantum and at most half of what is left. -/
def Obligations.CarvesConserveBudgets : Prop :=
  ∀ (q m t c : U64) (n : Nat), 0 ≤ t.toInt → 0 ≤ c.toInt →
    let r := carveList q m n t c
    r.1.length = n ∧ 0 ≤ r.2.1.toInt ∧ 0 ≤ r.2.2.toInt ∧
    r.2.1.toNat + (r.1.map (fun e => e.1.toNat)).sum = t.toNat ∧ r.2.2.toNat + (r.1.map (fun e => e.2.toNat)).sum = c.toNat ∧
    ∀ e ∈ r.1, e.1.toNat ≤ q.toNat ∧ e.2.toNat ≤ m.toNat ∧ e.1.toNat ≤ t.toNat / 2 ∧ e.2.toNat ≤ c.toNat / 2

/-- R198, R199, R201, R202, R383, R384: SPAWN is charged 8 ticks and waits for its header. A launch of one die without INHERIT
whose header passes its checks, within the depth limit and with a free entry of its class, is queued on the die with its
argument, its depth and its ASID, and sd becomes 0; an invalid header gives 3, a depth past the limit 2 or DEPTH for s0, and a
full queue 1, with nothing queued. LAUNCH_HEADER_READ does the same for a wave that waits. What the rules leave open in it is
the model's choice or reading: log entries 42 and 59. -/
def Obligations.SpawnQueuesALaunch : Prop :=
  ∀ (d a b : BitVec 5) (s : State),
    (Issues (.spawn d a b) { deps := [d, a, b], ticks := 8, mem := true } s → StartsWaiting (.spawn d a b) 8 0 s) ∧
    (Waits (.spawn d a b) 0 s → Translated s (walked false 64 (s.w.gs a)) → headerReady s = false → KeepsWaiting (.spawn d a b) s) ∧
    (∀ pa h, Canonical s → Waits (.spawn d a b) 0 s → Translated s (walked false 64 (s.w.gs a)) → NoWalk s 0 → LinksUp s → headerReady s = true → headerAt s (s.w.gs a) = .ok (.pkg pa, h) →
      h.pkg = false → h.inherit = false →
      let asid : BitVec 16 := if s.w.sup then (s.w.gs d).setWidth 16 else s.w.asid
      let bad : Prop := h.invalid false = true ∨ (s.w.sup = true ∧ asid = 0xFFFF)
      let tooDeep : Prop := s.w.sup = false ∧ s.w.limit < s.w.depth + 1
      let full : Prop := 4096 ≤ ((s.die s.w.die).tasks.filter (fun l => l.hdr.cls == h.cls)).length
      let launch : Launch :=
        { hdr := h, arg := s.w.gs b, asid := asid, anc := s.w.id :: s.w.anc
          sup := s.w.sup && asid == 0
          depth := if s.w.sup then 0 else s.w.depth + 1
          limit := if s.w.sup then h.depth else min s.w.limit h.depth }
      let answers (v : U64) (p : State → Prop) : Prop :=
        ∃ t, exec (.spawn d a b) s = .next t ∧ exec .launchHeaderRead s = (if s.running s.w.die && s.w.isResident
            then .next t else .refused (.notEnabled "LAUNCH_HEADER_READ")) ∧
          Writes s t d v ∧ t.w.pc = s.w.pc + 4 ∧ t.w.wait = none ∧ t.w.bud = s.w.bud ∧ SameBytes s t ∧ t.others = s.others ∧ p t
      (¬ bad → ¬ tooDeep → ¬ full → answers 0 (fun t =>
        t.die s.w.die = { s.die s.w.die with tasks := (s.die s.w.die).tasks ++ [launch] } ∧ ∀ k, k ≠ s.w.die → t.die k = s.die k)) ∧
      (bad → answers 3 (fun t => t.dies = s.dies)) ∧
      (¬ bad → tooDeep → d ≠ 0 → answers 2 (fun t => t.dies = s.dies)) ∧
      (¬ bad → ¬ tooDeep → full → answers 1 (fun t => t.dies = s.dies)) ∧
      (¬ bad → tooDeep → d = 0 → CanTrap s →
        ∃ t, exec (.spawn d a b) s = .next t ∧ TakesTrap s t 0 0x0B 0 0 (s.w.gs a) s.w.pc ∧ t.w.s = s.w.s ∧ SameBytes s t))

/-- R141, R142, R345, R346: BTOPUP is charged 4 ticks and waits for its status. Sent to the one wave of the die with the WID
and ASID, which for a user wave must be a descendant, it adds the amounts to its budgets, or to its pending credits while it
is not resident, and takes them from a user wave's own; no such wave gives 1, two give 3, an amount beyond a user wave's rest
2. BTOPUP.z asks a resident wave to yield. TOPUP_CREDIT does the same for a wave that waits. What the rules leave open in it
is the model's choice or reading: log entries 41 and 59. -/
def Obligations.TopupCreditsTheTarget : Prop :=
  ∀ (d a b c : BitVec 5) (s : State),
    (Issues (.btopup d a b c) { privBad := !s.w.sup && !s.w.hdr.topup, deps := [d, a, b, c], ticks := 4 } s →
      StartsWaiting (.btopup d a b c) 4 0 s) ∧
    (Issues (.btopupZ d a) { privBad := !s.w.sup, deps := [d, a], ticks := 4 } s → StartsWaiting (.btopupZ d a) 4 0 s) ∧
    (let asid : BitVec 16 := if s.w.sup then (s.w.gs d).setWidth 16 else s.w.asid
     let meant := s.waves.filter (fun w => decide (w.die = s.w.die) && w.placed && !w.isGone && w.wid == s.w.gs a && w.asid == asid &&
       (s.w.sup || w.anc.contains s.w.id))
     let x := s.w.gs b
     let y := s.w.gs c
     let within : Prop := (x.toNat : Int) ≤ max s.w.bud.ibgt.toInt 0 ∧ (y.toNat : Int) ≤ max s.w.bud.mbgt.toInt 0
     let own : Budget := if s.w.sup then s.w.bud else { s.w.bud with ibgt := s.w.bud.ibgt - x, mbgt := s.w.bud.mbgt - y }
     let credited (u : Wave) : Budget :=
       if u.isResident = true ∧ u.ctl.incont = false then { u.bud with ibgt := u.bud.ibgt + x, mbgt := u.bud.mbgt + y }
       else { u.bud with pendT := u.bud.pendT + x, pendS := u.bud.pendS + y }
     let answers (i : Instr) (v : U64) (p : State → Prop) : Prop :=
       ∃ t, exec i s = .next t ∧
         exec .topupCredit s = (if s.running s.w.die && s.w.isResident then .next t else .refused (.notEnabled "TOPUP_CREDIT")) ∧
         Writes s t d v ∧ t.w.pc = s.w.pc + 4 ∧ t.w.wait = none ∧ SameBytes s t ∧ p t ∧
         t = { s with w := { s.w with s := t.w.s, pc := t.w.pc, wait := none, bud := t.w.bud }, others := t.others }
     (Waits (.btopup d a b c) 0 s →
       (meant = [] → answers (.btopup d a b c) 1 (fun t => t.w.bud = s.w.bud ∧ t.others = s.others)) ∧
       (∀ u v l, meant = u :: v :: l → answers (.btopup d a b c) 3 (fun t => t.w.bud = s.w.bud ∧ t.others = s.others)) ∧
       (∀ u, meant = [u] → s.w.sup = false → ¬ within → answers (.btopup d a b c) 2 (fun t => t.w.bud = s.w.bud ∧ t.others = s.others)) ∧
       (∀ u, meant = [u] → u.id ≠ s.w.id → s.w.sup = true ∨ within → answers (.btopup d a b c) 0 (fun t => t.w.bud = own ∧
         t.others = s.others.map (fun w => if w.id = u.id then { w with bud := credited w } else w)))) ∧
     (Waits (.btopupZ d a) 0 s →
       (meant = [] → answers (.btopupZ d a) 1 (fun t => t.w.bud = s.w.bud ∧ t.others = s.others)) ∧
       (∀ u, meant = [u] → u.isResident = false → answers (.btopupZ d a) 4 (fun t => t.w.bud = s.w.bud ∧ t.others = s.others)) ∧
       (∀ u, meant = [u] → u.id ≠ s.w.id → u.isResident = true → answers (.btopupZ d a) 0 (fun t => t.w.bud = s.w.bud ∧
         t.others = s.others.map (fun w => if w.id = u.id ∧ w.bud.asked = false
           then { w with bud := { w.bud with asked := true, preemptSent := true } } else w)))))

/-! ### The vector instruction queue -/

/-- R36, R37, R127, R128, R210, R211, R302, R435, R436, R376, R409, R399, R367, R412, R452, R453, R333, R405: each queued instruction that
issues enters the vector instruction queue with its word and the scalar operands it reads then, its bound deducted; the control thread
goes on with the next instruction, and nothing else changes. -/
def Obligations.QueuedInstructionsEnterTheQueue : Prop :=
  ∀ s : State, s.w.trp.inh = false →
    let x (r : BitVec 5) : U64 := s.w.gs r
    let enters (i : Instr) (g : Gate) (x y z : U64) : Prop := Issues i g s → EntersQueue i (wordOf i) g.ticks g.sectors x y z s g.cls
    let perVl : Nat := 1 + ceilDiv s.w.cfg.maxvl 64
    let masks (d : BitVec 5) : Gate := { roles := [0, 3], queue := true, deps := [d], ticks := perVl }
    let stride (r : BitVec 6) : U64 := if 1 ≤ r.toNat ∧ r.toNat < 32 then x (BitVec.ofNat 5 r.toNat) else 0
    let matrix (t : Nat) : Gate := { roles := [0, 2], own := true, queue := true, ticks := t }
    (∀ n e b, enters (.vsetcfg n e b) { queue := true } 0 0 0) ∧
    (∀ d a g, enters (.vsetvl d a g) { queue := true, deps := [d, a] } (x a) 0 0) ∧
    (∀ n, enters (.reggive n) { queue := true } 0 0 0) ∧
    (∀ d k v, enters (.velect d k v) (masks d) 0 0 0) ∧
    (∀ d k, enters (.velectIdx d k) (masks d) 0 0 0) ∧
    (∀ d k v, enters (.vballot d k v) (masks d) 0 0 0) ∧
    (∀ d a b f sd, enters (.mop d a b f sd) (masks sd) 0 0 0) ∧
    (∀ m o, let t := target s.w.pc o.toInt
      enters (.vfetch m o) { roles := [0, 3], queue := true, ticks := 1 + (blockRsv s t s.w.cfg.maxvl).1
                             sectors := (blockRsv s t s.w.cfg.maxvl).2, await := awaitBlock 0 none t } t 0 0) ∧
    (∀ m a, enters (.vfetchReg m a) { roles := [0, 3], queue := true, deps := [a], ticks := 1 + (blockRsv s (x a) s.w.cfg.maxvl).1
                                      sectors := (blockRsv s (x a) s.w.cfg.maxvl).2, await := awaitBlock 0 none (x a) } (x a) 0 0) ∧
    (∀ n a b e, (x a).toNat < 2 ^ 60 → (x a).toNat % 8 = 0 →
      enters (.wmlink n a b e) { roles := [0, 3], queue := true, deps := [a, b] } (x a) (x b) 0) ∧
    (∀ a b, enters (.wmpub a b) { roles := [0, 3], queue := true, deps := [a, b], ticks := 2, sectors := 1, cls := some 2 } (x a) (x b) 0) ∧
    (∀ sc a c off, barrierOff s (x a) = .ok off →
      enters (.barrive sc a c) { queue := true, deps := [a], ticks := 2 } (BitVec.ofNat 64 off) 0 0) ∧
    (∀ m d b r k p o, k = 0 ∨ 32 ≤ r.toNat →
      enters (.vld m d b r k p o) (vmGate [0, 2, 3] (modeOf r) b r p o false s) (x b) (stride r) 0) ∧
    (∀ m d l b r k p o, k = 0 ∨ 32 ≤ r.toNat →
      enters (.vst m d l b r k p o) (vmGate [0, 3] (modeOf r) b r p o false s) (x b) (stride r) 0) ∧
    (∀ m d b r k p o, k = 0 ∨ 32 ≤ r.toNat →
      enters (.vamo m d b r k p o) (vmGate [0, 3] (modeOf r) b r p o true s) (x b) (stride r) (x (b + 1))) ∧
    (∀ m d b r k p o, enters (.vgath m d b r k p o) (vmGate [0, 3] (.index r.toNat) b r p o false s) (x b) 0 0) ∧
    (∀ m d b r k p o, enters (.vgathC m d b r k p o) (vmGate [0, 3] (.index r.toNat) b r p o false s) (x b) 0 0) ∧
    (∀ m d l b r k p o, enters (.vscat m d l b r k p o) (vmGate [0, 3] (.index r.toNat) b r p o false s) (x b) 0 0) ∧
    (∀ m d b r k p o, enters (.bkred m d b r k p o) (vmGate [0, 3] (.index r.toNat) b r p o true s) (x b) 0 (x (b + 1))) ∧
    (∀ t a b f r e, enters (.mma t a b f r e) (matrix (8 + if e = 1 then epiLength s.w else 0)) 0 0 0) ∧
    (∀ t a b f r e p q, enters (.mmas t a b f r e p q) (matrix (8 + if e = 1 then epiLength s.w else 0)) 0 0 0) ∧
    (∀ d a g f r p z, enters (.mscacc d a g f r p z) (matrix 2) 0 0 0) ∧
    (∀ t v r c, enters (.mmovTileToReg t v r c) (matrix 8) 0 0 0) ∧
    (∀ t v r c, enters (.mmovRegToTile t v r c) (matrix 8) 0 0 0) ∧
    (∀ t r, enters (.mzero t r) (matrix 2) 0 0 0) ∧
    (∀ r, enters (.mzeroAll r) (matrix 2) 0 0 0) ∧
    (∀ t a p, enters (.msave t a p) (tileGate s a p) 0 0 0) ∧
    (∀ t a p, enters (.mrest t a p) (tileGate s a p) 0 0 0)

/-- R66, R67, R64, R73, R37, R53, R97, R378, R435, R436, R376: at the head of the queue VSETCFG sets the configuration, VL 0 and MAXVL, and
drops every register, the queues and the latches; VSETVL sets VL and sd, and with grow raises QUOTA within QMAX and R71 where the
request exceeds MAXVL; REGGIVE gives back the highest registers and their share, or raises ILLOP for a count of 0 or of all. What the
rules leave open in it is the model's choice or reading: log entries 55 and 61. -/
def Obligations.ConfigurationTakesEffect : Prop :=
  ∀ (s : State) (e : QEntry), s.w.mat = [] → s.w.anyLanding = false →
    let c := s.w.cfg
    let blk (b : BitVec 3) : Nat := if b = 0 then 1 else 8 * 2 ^ b.toNat
    let configures (t : State) (cfg : Vcfg) : Prop :=
      t.w.cfg = cfg ∧ t.w.xq = [] ∧ t.w.qseg = .released ∧ t.w.vps = [] ∧ t.w.frontier = [] ∧ t.w.latches = [] ∧ SameBytes s t ∧
      t = { s with clusters := t.clusters, w := { s.w with
        vq := t.w.vq, bud := t.w.bud, cfg := cfg, s := t.w.s, xq := [], qseg := .released, vps := [], frontier := [], latches := []
        serialVp := none, ctl := { s.w.ctl with serial := false, short := t.w.ctl.short }, vregs := t.w.vregs, want := t.w.want
        segNeed := t.w.segNeed } }
    (∀ n w b, AtHead (.vsetcfg n w b) e s → s.w.runs = [] → TakesEffect s (fun t => LeavesQueue s t e 1 0 ∧ t.clusters = s.clusters ∧
      configures t { c with nregc := n, ewc := w, blkc := b, nreg := 8 * 2 ^ n.toNat, share := c.quota / (8 * 2 ^ n.toNat), vl := 0
                            maxvl := MaxVl s.w.lanes c.quota (8 * 2 ^ n.toNat) (8 * 2 ^ w.toNat) (blk b) } ∧
      t.w.vregs = [] ∧ t.w.s = s.w.s)) ∧
    (∀ d a g, AtHead (.vsetvl d a g) e s → s.w.runs = [] →
      let vl (m : Nat) : Nat := min e.x.toNat m / blk c.blkc * blk c.blkc
      let sets (t : State) (cfg : Vcfg) : Prop := LeavesQueue s t e 1 0 ∧ configures t { cfg with vl := vl cfg.maxvl } ∧
        Writes s t d (BitVec.ofNat 64 (vl cfg.maxvl)) ∧ t.w.vregs = s.w.vregs ∧
        t.w.ctl.short = (s.w.ctl.short || (e.x != 0 && vl cfg.maxvl == 0))
      (g = 0 ∨ e.x.toNat ≤ c.maxvl → TakesEffect s (fun t => sets t c ∧ t.clusters = s.clusters)) ∧
      (g = 1 → c.maxvl < e.x.toNat → TakesEffect s (fun t => ∃ q, c.quota ≤ q ∧ q ≤ max c.quota c.qmax ∧
        (q ≠ c.quota → progress t.myCluster.pool ((q, c.floor) :: t.quotas s.w.die s.w.cl s.w.id) = true) ∧
        sets t { c with quota := q, share := q / c.nreg
                        maxvl := MaxVl s.w.lanes q c.nreg (8 * 2 ^ c.ewc.toNat) (blk c.blkc) }))) ∧
    (∀ n, AtHead (.reggive n) e s →
      (n ≠ 0 → n.toNat < c.nreg → spWf ({} : VReg) 0 s.w.vregs = true → Canonical s → TakesEffect s (fun t =>
        LeavesQueue s t e 1 0 ∧ SameBytes s t ∧ t.myTeam = { s.myTeam with tfree := s.myTeam.tfree + n.toNat * c.share } ∧
        (∀ k, k ≠ s.w.team → t.team k = s.team k) ∧
        (∀ v, t.w.reg v = if c.nreg - n.toNat ≤ v ∧ v < c.nreg then {} else s.w.reg v) ∧ SameInFlight s t ∧
        t = { s with teams := t.teams, w := { s.w with
          vq := t.w.vq, bud := t.w.bud, vregs := t.w.vregs, runs := t.w.runs, vland := t.w.vland, reqs := t.w.reqs, replies := t.w.replies
          cfg := { c with quota := c.quota - n.toNat * c.share, qmax := c.qmax - n.toNat * c.share
                          floor := min c.floor (c.quota - n.toNat * c.share), nreg := c.nreg - n.toNat } } })) ∧
      (n = 0 ∨ c.nreg ≤ n.toNat → EntryTraps s 0x01 0 e.pc))

/-- R98, R99, R377: REGCLAIM enters the queue and the control thread waits. At the head of the queue a claim of registers that
NREG, QMAX and the team's free quota allow, in its turn, is granted: the control thread goes on; one that they do not allow
yet waits; a count that R98 refuses raises ILLOP; the oldest claim of a team in a claim deadlock raises CLAIMDL. EPC is past
the instruction in both. What the rules leave open in it is the model's choice or reading: log entry 49. -/
def Obligations.RegclaimWaitsForQuota : Prop :=
  ∀ (n : BitVec 6) (s : State),
    let k : Nat := n.toNat * s.w.cfg.share
    let inWait : Prop := s.w.wait = some (.issued (.regclaim n) 0)
    let pastWith (p : PTrap) : State := { s with w := { s.w with pc := s.w.pc + 4, wait := none, traps := s.w.traps ++ [p] } }
    (Issues (.regclaim n) { queue := true } s → s.w.trp.inh = false → ∃ t, exec (.regclaim n) s = .next t ∧
      t.w.wait = some (.issued (.regclaim n) 0) ∧ t.w.pc = s.w.pc ∧ Charged s t 1 0 ∧
      OnlyQueues s t { word := wordOf (.regclaim n), pc := s.w.pc, rsvT := 1 }) ∧
    (∀ e, AtHead (.regclaim n) e s → s.w.claim? = some n.toNat → s.w.mat = [] → inWait →
      let bad : Prop := n = 0 ∨ 64 < s.w.cfg.nreg + n.toNat ∨ 256 < s.w.cfg.qmax + k
      let allowed : Prop := k ≤ s.myTeam.tfree ∧ claimTurn s = true ∧
        progress s.myCluster.pool ((s.w.cfg.quota + k, s.w.cfg.floor) :: s.quotas s.w.die s.w.cl s.w.id) = true
      (¬ bad → allowed → Canonical s → ∃ t, exec .vectorQueueEntryEffect s = .next t ∧ exec .regclaimGrant s = .next t ∧
        (s.agent = .control → exec (.regclaim n) s = .next t) ∧ SameBytes s t ∧
        t.myTeam = { s.myTeam with tfree := s.myTeam.tfree - k } ∧ (∀ j, j ≠ s.w.team → t.team j = s.team j) ∧
        t = { s with teams := t.teams, w := { s.w with
          vq := s.w.vq.tail, pc := s.w.pc + 4, wait := none
          cfg := { s.w.cfg with quota := s.w.cfg.quota + k, qmax := s.w.cfg.qmax + k, nreg := s.w.cfg.nreg + n.toNat }
          bud := { s.w.bud with ibgt := s.w.bud.ibgt + BitVec.ofNat 64 e.rsvT - 1, mbgt := s.w.bud.mbgt + BitVec.ofNat 64 e.rsvS } } }) ∧
      (¬ bad → ¬ allowed → exec .vectorQueueEntryEffect s = .next s ∧ (s.agent = .control → exec (.regclaim n) s = .next s)) ∧
      (bad → exec .vectorQueueEntryEffect s = .next (pastWith { src := 2, cause := 0x01, val := e.pc }))) ∧
    (claimDead s = true → inWait → ∀ m, s.w.claim? = some m →
      exec .claimDeadlock s = .next (pastWith { src := 2, cause := 0x0A, val := BitVec.ofNat 64 m }))

/-- R409, R410, R399, R367: VELECT delivers the element of the lowest selected index below VL, or 0, and VELECT.idx that index, or all
ones; VBALLOT delivers 64 bits of a mask register, those at VL and above 0; MOP writes a mask register from two others below VL, 0 above,
and delivers its count of ones. Each is charged 1 tick and one per 64 elements of VL, and changes nothing else. -/
def Obligations.MaskReadsTakeEffect : Prop :=
  ∀ (s : State) (e : QEntry) (d : BitVec 5), s.w.mat = [] →
    let vl := s.w.cfg.vl
    let m (k : BitVec 3) (i : Nat) : Bool := (s.w.mask k).getLsbD i
    let delivers (t : State) (v : U64) : Prop := LeavesQueue s t e (1 + ceilDiv vl 64) 0 ∧ Writes s t d v ∧ SameBytes s t ∧
      t = { s with w := { s.w with vq := t.w.vq, bud := t.w.bud, s := t.w.s, masks := t.w.masks
                                   ctl := { s.w.ctl with rdrel := t.w.ctl.rdrel } } }
    let none' (k : BitVec 3) : Prop := ∀ i, i < vl → m k i = false
    let lowest (k : BitVec 3) (j : Nat) : Prop := j < vl ∧ m k j = true ∧ ∀ i, i < j → m k i = false
    (∀ k v, AtHead (.velect d k v) e s → v.toNat < s.w.cfg.nreg →
      (none' k → TakesEffect s (fun t => delivers t 0 ∧ t.w.masks = s.w.masks)) ∧
      (∀ j, lowest k j → Readable s v.toNat [j] → TakesEffect s (fun t =>
        delivers t ((s.w.reg v.toNat).elem j) ∧ t.w.masks = s.w.masks ∧
        t.w.ctl.rdrel = (s.w.ctl.rdrel || (s.w.reg v.toNat).st == .released)))) ∧
    (∀ k, AtHead (.velectIdx d k) e s →
      (none' k → TakesEffect s (fun t => delivers t (BitVec.allOnes 64) ∧ t.w.masks = s.w.masks)) ∧
      (∀ j, lowest k j → TakesEffect s (fun t => delivers t (BitVec.ofNat 64 j) ∧ t.w.masks = s.w.masks))) ∧
    (∀ k w, AtHead (.vballot d k w) e s → ∃ v : U64,
      (∀ i, i < 64 → v.getLsbD i = (decide (64 * w.toNat + i < vl) && m k (64 * w.toNat + i))) ∧
      TakesEffect s (fun t => delivers t v ∧ t.w.masks = s.w.masks)) ∧
    (∀ md a b f, AtHead (.mop md a b f d) e s → vl ≤ 8192 →
      let bit (i : Nat) : Bool :=
        if f = 0 then m a i && m b i else if f = 1 then m a i || m b i else if f = 2 then m a i != m b i
        else if f = 3 then m a i && !m b i else if f = 4 then !m a i else if f = 5 then m a i else if f = 6 then true
        else m a i && (List.range i).all (fun j => !m a j)
      TakesEffect s (fun t => delivers t (BitVec.ofNat 64 ((List.range vl).filter bit).length) ∧
        (∀ i, i < 8192 → (t.w.mask md).getLsbD i = (decide (i < vl) && bit i)) ∧ ∀ k, k ≠ md → t.w.mask k = s.w.mask k))

/-- R30, R36, R38, R48, R87, R129, R143, R323, R400: a VFETCH at the head of the queue starts its block in lockstep for the active VPs below
VL, with its reservation less one tick, or with none of them completes at once; where its block cannot be read it traps with the lowest of
them. A fetch ahead of the queue starts its block for the VPs caught or re-sent. VCATCH, once the queue is empty and the wave quiescent,
counts the parked VPs and places one fetch per address in ascending order. -/
def Obligations.BlocksStartForTheirVps : Prop :=
  ∀ s : State,
    (∀ e l, queueMoves s = true → s.w.fetches = [] → s.w.vq = e :: l → opOf e.word = 0x45 → s.w.ctl.incont = false → s.w.mat = [] →
      awaitBlock 1 none e.x s = none → NoWalk s 1 → blockDelayed s = false →
      let vs := (List.range s.w.cfg.vl).filter (fun v => !e.word.getLsbD 23 || (s.w.mask 0).getLsbD v)
      (∀ h ws, namedBlock s e.x = .ok (h, ws) →
        (vs ≠ [] → ∃ t r, exec .vfetchDispatch s = .next t ∧ BlockStarts s t r vs ∧ t.w.vq = l ∧ t.w.fetches = [] ∧ r.kind = .lockstep ∧
          r.addr = e.x ∧ r.words = ws ∧ r.idem = hdrIdem h ∧ r.rsvT = e.rsvT - 1 ∧ r.rsvS = e.rsvS) ∧
        (vs = [] → RunsExist s.w → exec .vfetchDispatch s = .next { s with w := { s.w with
          vq := l, bud := { s.w.bud with ibgt := s.w.bud.ibgt + BitVec.ofNat 64 (e.rsvT - 1)
                                         mbgt := s.w.bud.mbgt + BitVec.ofNat 64 e.rsvS } } })) ∧
      (∀ c a, namedBlock s e.x = .error (c, a) → exec .vfetchDispatch s =
        .next { s with w := { s.w with traps := s.w.traps ++ [{ src := 2, cause := c, vp := vs.headD 0, val := a }] } })) ∧
    (∀ f fs h ws, queueMoves s = true → s.w.heldBack = false → s.w.fetches = f :: fs → s.w.mat = [] → awaitBlock 1 none f.addr s = none →
      NoWalk s 1 → blockDelayed s = false → namedBlock s f.addr = .ok (h, ws) →
      s.w.caughtVps f.addr ≠ [] → ∃ t r, exec (if f.resent then .resentFetch else .catchFetch) s = .next t ∧
        BlockStarts s t r (s.w.caughtVps f.addr) ∧ t.w.fetches = fs ∧ t.w.vq = s.w.vq ∧
        r.kind = (if f.resent then .resent else .catchGroup) ∧ r.addr = f.addr ∧ r.words = ws ∧ r.idem = hdrIdem h) ∧
    (∀ d : BitVec 5,
      let ready : Prop := Settled s ∧ ∀ t ∈ s.w.traps, t.src = 3
      let parked (a : U64) : Prop := ∃ v, (v, VpSt.parked a) ∈ s.w.vps
      let isParked : Nat × VpSt → Bool := fun e => match e.2 with | .parked _ => true | _ => false
      let catches (t : State) : Prop := Writes s t d (BitVec.ofNat 64 (s.w.vps.filter isParked).length) ∧ t.w.pc = s.w.pc + 4 ∧
        t.w.wait = none ∧ SameBytes s t ∧
        (∀ v, t.w.vp v = match s.w.vp v with | some (.parked a) => some (.caught a) | x => x) ∧
        (∀ f, f ∈ t.w.fetches ↔ f ∈ s.w.fetches ∨ ∃ a, parked a ∧ f = { addr := a, resent := false }) ∧
        (s.w.fetches = [] → t.w.fetches.Pairwise (fun f g => f.addr.toNat < g.addr.toNat)) ∧
        t = { s with w := { s.w with s := t.w.s, pc := t.w.pc, wait := none, bud := t.w.bud, fetches := t.w.fetches, vps := t.w.vps } }
      (Issues (.vcatch d) { roles := [0, 3], noHandler := true, deps := [d] } s →
        (ready → ∃ t, exec (.vcatch d) s = .next t ∧ catches t ∧ Charged s t 1 0) ∧ (¬ ready → StartsWaiting (.vcatch d) 1 0 s)) ∧
      (Waits (.vcatch d) 0 s →
        (ready → ∃ t, exec (.vcatch d) s = .next t ∧ (OnDuty s → exec .vcatchComplete s = .next t) ∧ catches t ∧ t.w.bud = s.w.bud) ∧
        (¬ ready → KeepsWaiting (.vcatch d) s)))

/-- R51, R52, R53, R445, R447: VXSEED, after every earlier queue entry and while its boundary holds fewer than four entries,
appends its value for VP 0, allocating the queue segment on the first push; VXTAKE delivers the oldest entry of the take
boundary. Each waits otherwise, and CROSS_ELEMENT_UNBLOCK completes it when it can, or lets a blocked VP go on that finds an
entry or room. What the rules leave open in it is the model's choice or reading: log entry 59. -/
def Obligations.SeedAndTakeQueues : Prop :=
  ∀ (r : BitVec 5) (s : State),
    let gate : Gate := { roles := [0, 3], noHandler := true, deps := [r] }
    let goes (t : State) : Prop := t.w.pc = s.w.pc + 4 ∧ t.w.wait = none ∧ SameBytes s t ∧
      t = { s with w := { s.w with s := t.w.s, xq := t.w.xq, qseg := t.w.qseg, qage := s.free, pc := t.w.pc, bud := t.w.bud, wait := none } }
    let canSeed : Prop := QueueEmpty s ∧ (s.w.boundary seedBnd).length < 4 ∧ s.w.qseg ≠ .spilled ∧
      (s.w.qseg = .released → canAlloc s 1 = true)
    let seeds (t : State) : Prop := goes t ∧ t.w.s = s.w.s ∧ t.w.qseg = .live ∧
      t.w.xq = s.w.xq ++ [{ bnd := seedBnd, vp := 0, val := s.w.gs r }]
    let takes (e : XEntry) (t : State) : Prop := goes t ∧ Writes s t r e.val ∧ t.w.qseg = s.w.qseg ∧
      t.w.boundary takeBnd = (s.w.boundary takeBnd).tail ∧ ∀ b, b ≠ takeBnd → t.w.boundary b = s.w.boundary b
    (Issues (.vxseed r) gate s →
      (canSeed → ∃ t, exec (.vxseed r) s = .next t ∧ seeds t ∧ Charged s t 1 0) ∧
      (¬ QueueEmpty s ∨ 4 ≤ (s.w.boundary seedBnd).length → StartsWaiting (.vxseed r) 1 0 s)) ∧
    (Waits (.vxseed r) 0 s → canSeed → ∃ t, exec (.vxseed r) s = .next t ∧ seeds t ∧ t.w.bud = s.w.bud ∧
      (OnDuty s → ∀ v, exec (.crossElementUnblock 1 v) s = .next t)) ∧
    (Issues (.vxtake r) gate s →
      (∀ e l, s.w.boundary takeBnd = e :: l → s.w.qseg ≠ .spilled → ∃ t, exec (.vxtake r) s = .next t ∧ takes e t ∧ Charged s t 1 0) ∧
      (s.w.boundary takeBnd = [] → s.w.qseg ≠ .spilled → StartsWaiting (.vxtake r) 1 0 s)) ∧
    (∀ e l, Waits (.vxtake r) 0 s → s.w.boundary takeBnd = e :: l → s.w.qseg ≠ .spilled →
      ∃ t, exec (.vxtake r) s = .next t ∧ takes e t ∧ t.w.bud = s.w.bud ∧ (OnDuty s → ∀ v, exec (.crossElementUnblock 1 v) s = .next t)) ∧
    (∀ (v : BitVec 13) id pos rep tg x, OnDuty s → s.w.vp v.toNat = some (.run id pos rep tg true) → s.w.run? id = some x →
      let word := wordAt x.words pos rep
      (namesXin word = true → s.w.xinEntry v.toNat ≠ none) → (opOf word = 0x69 → (s.w.boundary (s.w.sendBnd v.toNat)).length < 4) →
      ∃ t, exec (.crossElementUnblock 0 v) s = .next t ∧ t = { s with w := { s.w with vps := t.w.vps } } ∧
        ∀ u, t.w.vp u = if u = v.toNat then some (.run id pos rep tg false) else s.w.vp u)

/-- R303, R406, R244, R131, R84, R76, R154, R187, R188, R190, R191, R415, R417: a VLD, VGATH or VGATH.C at the head of the
queue computes one address per active element below VL; VL becomes the first faulting element where a later than the first
active one faults; vd takes VL as its tag, elements already in the load buffer land, and the others are on their way, those of
a linked load that its watermark does not admit waiting for their link, with the load still at the head. The charge is
settled, and a last use releases the index register. What the rules leave open in it is the model's choice or reading: log
entries 18 and 29. -/
def Obligations.VectorLoadsTakeEffect : Prop :=
  ∀ (s : State) (e : QEntry) (m : BitVec 1) (d x : BitVec 6) (b : BitVec 5) (k : BitVec 1) (p o : BitVec 2), RegsOk s.w → s.w.mat = [] →
    let vl := s.w.cfg.vl
    let size := s.w.ew / 8
    let act := actives s.w m
    let byIndex (r j : Nat) : U64 := e.x + BitVec.ofNat 64 (((s.w.reg r).elem j).toNat * size)
    let loads (i : Instr) (idx : Option Nat) (spans shared : Bool) (addr : Nat → U64) : Prop := AtHead i e s →
      let buffered (j : Nat) : Option Early := e.sentEarly (addr j) j
      let f (j : Nat) : Except (BitVec 8) Target := match buffered j with
        | some (.fault c) => .error c
        | some (.value g _) => .ok g
        | some (.forced g _) => .ok g
        | none => resolve s Acc.load (p == 3) (addr j) size
      let got (j : Nat) : Option U64 := match buffered j with
        | some (.value _ y) => some y
        | some (.forced _ y) => some y
        | _ => none
      let bad (j : Nat) (g : Target) : Bool := (buffered j).isNone && s.poisonedAt g
      (s.w.cfg.nreg ≤ d.toNat → EntryTraps s 0x01 0 e.pc) ∧
      (d.toNat < s.w.cfg.nreg → (∀ r ∈ idx, Readable s r act) → HasRoom s d.toNat →
        ((s.w.reg d.toNat).st = .spilled → act.length = vl) → (spans = false → engineFull s = false) →
        (∀ j ∈ act, buffered j = none → Translated s (walked (p == 3) size (addr j))) →
        (o ≠ 2 → ElementTraps s act f bad (p == 3) addr) ∧
        (o = 2 → s.w.link = none → EntryTraps s 0x01 0 e.pc) ∧
        (∀ n lk wm w, Reaches act f bad vl n → (o = 2 → e.early = none ∧ s.w.link = some (lk, wm) ∧ linkValue s wm = .ok w ∧
            Translated s (walked false 8 (wm.waddr.setWidth 64))) →
          let l := act.filter (fun j => decide (j < n))
          let held (j : Nat) : Option Nat :=
            if o = 2 ∧ wm.base ≤ addr j ∧ w ≤ (addr j - wm.base).toNat / 2 ^ wm.esz.toNat then some lk else none
          let waits : Bool := l.any (fun j => (held j).isSome)
          let out := l.filter (fun j => (buffered j).isNone)
          let sec := sectors spans size addr f l
          let ticks := 1 + ceilDiv vl 64
          let drops : Prop := o = 2 ∨ (o = 1 ∧ p ≠ 3 ∧ out = [])
          TakesEffect s (fun t => SameBytes s t ∧
            (¬ drops → Exchanges s t (if o = 1 then 2 else 1) e.rsvS sec) ∧
            (drops → Canonical s → t.myCluster = { s.myCluster with tokens := t.myCluster.tokens, l1 := [] } ∧
              ∀ d c, clKey d c ≠ clKey s.w.die s.w.cl → t.cluster d c = s.cluster d c) ∧
            t.w.vq.map (fun e => { e with early := none }) =
              ((if waits then [{ e with rsvT := ticks, rsvS := sec, z := if n < vl then 1 else 0 }] else []) ++ s.w.vq.tail).map
                (fun (q : QEntry) => { q with early := none }) ∧
            t.w.bud = { s.w.bud with ibgt := s.w.bud.ibgt + BitVec.ofNat 64 e.rsvT - BitVec.ofNat 64 ticks
                                     mbgt := s.w.bud.mbgt + BitVec.ofNat 64 e.rsvS - BitVec.ofNat 64 sec } ∧
            t.w.vland = s.w.vland ++ out.map (fun j =>
              { sseq := s.sseq, path := if idx.isSome then .gath else .vec, tgt := place f j, size := size, dst := .elem d.toNat j
                va := addr j, linked := held j, grp := s.sseq, shared := shared, acq := o == 1, drop := o == 1 && p != 3
                pol := p.toNat, direct := p == 3, gath := !spans, elem := j }) ∧
            t.w.vps = (if n < vl then s.w.vps.filter (fun q => decide (q.1 < n)) else s.w.vps) ∧
            (∀ r, r ≠ d.toNat → t.w.reg r = if k = 1 ∧ idx = some r ∧ n = vl ∧ vl ≠ 0 ∧ waits = false then {} else s.w.reg r) ∧
            (vl = 0 → t.w.reg d.toNat = s.w.reg d.toNat) ∧
            (vl ≠ 0 → (t.w.reg d.toNat).st = .live ∧ (t.w.reg d.toNat).tag = n ∧ ∀ j, (t.w.reg d.toNat).elem j =
              if n ≤ j then 0 else match (if j ∈ act then got j else none) with
                | some y => BitVec.ofNat 64 (y.toNat % 2 ^ s.w.ew)
                | none => (s.w.reg d.toNat).elem j) ∧
            t = { s with clusters := t.clusters, sseq := s.sseq + 1, w := { s.w with
              vq := t.w.vq, bud := t.w.bud, cfg := { s.w.cfg with vl := n }, vps := t.w.vps, vland := t.w.vland, vregs := t.w.vregs
              ctl := { s.w.ctl with rdrel := s.w.ctl.rdrel || idx.any (fun r => (s.w.reg r).st == .released) } } })))
    (x = 0 → loads (.vld m d b x k p o) none true false (fun j => e.x + BitVec.ofNat 64 (j * size))) ∧
    (0 < x.toNat → x.toNat < 32 → loads (.vld m d b x k p o) none false false (fun j => e.x + BitVec.ofNat 64 j * e.y)) ∧
    (32 ≤ x.toNat → loads (.vld m d b x k p o) (some (x.toNat - 32)) false false (byIndex (x.toNat - 32))) ∧
    loads (.vgath m d b x k p o) (some x.toNat) false false (byIndex x.toNat) ∧
    loads (.vgathC m d b x k p o) (some x.toNat) false true (byIndex x.toNat)

/-- R361, R171, R254, R327, R396, R167: LOAD_REPLY lands the oldest scalar load, extended as its instruction asks, or raises
ECC where its sector holds an uncorrectable error; AMO_REPLY lands an atomic's result; ATOMIC_TIMEOUT answers 0 for an atomic
to a network window and raises PAGE. What a load returns is memory's own content where the wave has no store and its cluster
no copy of it. What the rules leave open in it is the model's choice or reading: log entries 10 and 59. -/
def Obligations.ScalarResultsLand : Prop :=
  (∀ (s : State) (l : Load) (tl : List Load), takesReplies s = true → s.w.loads = l :: tl → loadDue s l = true →
    let n := 8 * l.size
    let v := loadValue s l.path l.sseq l.tgt l.size % 2 ^ n
    let extended : U64 := BitVec.ofNat 64 (if l.sgn = true ∧ 2 ^ (n - 1) ≤ v then v + (2 ^ 64 - 2 ^ n) else v)
    (s.poisonedAt l.tgt = false → 0 < l.size → l.size ≤ 8 → RegsOk s.w → Canonical s → ∃ t, exec .loadReply s = .next t ∧
      Lands s t [l.dst] extended ∧ Latched s t l.dst extended ∧ OnlyL1 s t ∧ SameBytes s t ∧ SameQueue s t ∧
      t = { s with clusters := t.clusters, w := { s.w with loads := tl, s := t.w.s, vregs := t.w.vregs, latches := t.w.latches, vq := t.w.vq } }) ∧
    (s.poisonedAt l.tgt = true → exec .loadReply s =
      .next { s with w := { s.w with loads := tl, traps := s.w.traps ++ [{ src := 3, cause := 0x0F, val := l.va }] } })) ∧
  (∀ (s : State) (k : BitVec 13) (r : Reply), takesReplies s = true → s.w.replies[k.toNat]? = some r → replyHeld s s.w.die r.tgt = false →
    atomicHalted s s.w.die r.tgt = false → RegsOk s.w → ∃ t, exec (.amoReply k) s = .next t ∧ Lands s t [r.dst] r.val ∧
      Latched s t r.dst r.val ∧
      t = { s with w := { s.w with replies := s.w.replies.eraseIdx k.toNat, s := t.w.s, vregs := t.w.vregs, latches := t.w.latches } }) ∧
  (∀ (s : State) (k : BitVec 13) (r : Req), takesReplies s = true → s.w.reqs[k.toNat]? = some r → (∃ w off, r.tgt = .win w off) →
    r.op.isBank = true → atomicHalted s s.w.die r.tgt = false → s.w.isGone = false → exec (.atomicTimeout k) s = .next { s with w := { s.w with
      reqs := s.w.reqs.eraseIdx k.toNat
      replies := s.w.replies ++ (if r.dst = .none then [] else [{ dst := r.dst, val := 0, size := r.size, tgt := r.tgt }])
      traps := s.w.traps ++ [{ src := 3, cause := 0x05, val := r.va }] } }) ∧
  (∀ (s : State) (p : Path) (q pa n : Nat), s.w.reqs = [] → s.myCluster.l1 = [] → loadValue s p q (.pkg pa) n = Memory.readN s.mem pa n)

/-- R154, R173, R187, R188, R406: an element of a vector load lands as its place asks, with VGATH.C together with every element of its
address, and in the stores that send it on, or raises ECC; a queued load sent early fills its load buffer with the fault or the value
that each translated element meets then; an element of a linked load whose watermark has come up is admitted, with VGATH.C together with
those of its address, dropping L1, and with the last one the load leaves the queue and releases its index register. What the rules leave
open in it is the model's choice or reading: log entries 17 and 59. -/
def Obligations.VectorElementsLand : Prop :=
  (∀ (s : State) (k : BitVec 13) (l : Load), takesReplies s = true → s.w.vland[k.toNat]? = some l → loadDue s l = true →
    let same (y : Load) : Bool := l.shared && y.grp == l.grp && y.va == l.va && y.linked.isNone
    let others := s.w.vland.eraseIdx k.toNat
    let left := others.filter (fun y => !same y)
    let both := l :: others.filter same
    let v : U64 := BitVec.ofNat 64 (loadValue s l.path l.sseq l.tgt l.size)
    (s.poisonedAt l.tgt = false → RegsOk s.w → Canonical s → l.size ≤ 8 → ∃ t, exec (.vectorLoadReply k) s = .next t ∧
      Lands s t (both.map (fun y => y.dst)) v ∧ ((∀ y ∈ both, ∀ x i, y.dst ≠ .loc x i) → t.w.latches = s.w.latches) ∧
      t.w.reqs = s.w.reqs.map (fun r => if both.any (fun y => r.src == some (y.sseq, y.elem)) then { r with op := .store v } else r) ∧
      OnlyL1 s t ∧ (l.drop = true → t.myCluster.l1 = []) ∧ SameBytes s t ∧ SameQueue s t ∧
      t = { s with clusters := t.clusters, w := { s.w with vland := left, s := t.w.s, vregs := t.w.vregs, reqs := t.w.reqs
                                                           latches := t.w.latches, vq := t.w.vq } }) ∧
    (s.poisonedAt l.tgt = true → exec (.vectorLoadReply k) s = .next { s with w := { s.w with
      vland := left, traps := s.w.traps ++ [{ src := 3, cause := 0x0F, val := if l.direct then 0x0FFFFF0000000000 + l.va else l.va }] } })) ∧
  (∀ (s : State) (k : BitVec 5) (e : QEntry) (m : BitVec 1) (d x : BitVec 6) (b : BitVec 5) (u : BitVec 1) (p o : BitVec 2),
    s.running s.w.die = true → s.w.vq[k.toNat]? = some e → earlyReady s k.toNat = true → s.w.cfg.vl ≤ 8192 → Canonical s →
    let size := s.w.ew / 8
    let fills (path : Path) (addr : Nat → U64) : Prop :=
      let f (j : Nat) := resolve s Acc.load (p == 3) (addr j) size
      ∃ t e', exec (.earlyLoadSend k) s = .next t ∧ OnlyL1 s t ∧
        t = { s with clusters := t.clusters, w := { s.w with vq := s.w.vq.set k.toNat e' } } ∧ e' = { e with early := e'.early } ∧
        ∀ j < s.w.cfg.vl,
          (¬ Translated s (walked (p == 3) size (addr j)) → e'.sentEarly (addr j) j = none) ∧
          (Translated s (walked (p == 3) size (addr j)) →
            (∀ c, f j = .error c → e'.sentEarly (addr j) j = if c = 0x0F then none else some (.fault c)) ∧
            (∀ g, f j = .ok g → s.poisonedAt g = true → e'.sentEarly (addr j) j = none) ∧
            (∀ g, f j = .ok g → s.poisonedAt g = false → s.w.reqs = [] → LinksUp s →
              e'.sentEarly (addr j) j = some (.value g (BitVec.ofNat 64 (loadValue s path s.sseq g size)))))
    let byIndex (r j : Nat) : U64 := e.x + BitVec.ofNat 64 (((s.w.reg r).elem j).toNat * size)
    (e.word = wordOf (.vld m d b x u p o) → (x = 0 → fills .vec (fun j => e.x + BitVec.ofNat 64 (j * size))) ∧
      (0 < x.toNat → x.toNat < 32 → fills .vec (fun j => e.x + BitVec.ofNat 64 j * e.y)) ∧
      (32 ≤ x.toNat → fills .gath (byIndex (x.toNat - 32)))) ∧
    (e.word = wordOf (.vgath m d b x u p o) ∨ e.word = wordOf (.vgathC m d b x u p o) → fills .gath (byIndex x.toNat))) ∧
  (∀ (s : State) (k : BitVec 13) (l : Load) (lk : Nat) (wm : Wm) (w : Nat) (e : QEntry) (q : List QEntry) (m : BitVec 1) (d x : BitVec 6)
    (b : BitVec 5) (u : BitVec 1) (p o : BitVec 2), OnDuty s → s.w.trp.inh = false → s.w.leaving = false → s.w.heldBack = false →
    s.w.vland[k.toNat]? = some l → l.linked.isSome = true → s.w.link = some (lk, wm) → linkValue s wm = .ok w →
    Translated s (walked false 8 (wm.waddr.setWidth 64)) → NoWalk s 1 →
    l.va < wm.base ∨ (l.va - wm.base).toNat / 2 ^ wm.esz.toNat < w → s.w.vq = e :: q → RegsOk s.w → Canonical s →
    let now := s.w.vland.zipIdx.map (fun y =>
      if y.2 = k.toNat ∨ (l.shared = true ∧ y.1.grp = l.grp ∧ y.1.va = l.va) then { y.1 with linked := none } else y.1)
    let more : Bool := now.any (fun y => y.linked.isSome)
    let admits (r : Nat) : Prop := s.w.landingIn [r] = false → ∃ t, exec (.linkedLoadAdmit k) s = .next t ∧ t.w.vland = now ∧
      t.w.vq = (if more then e :: q else q) ∧
      (∀ v, t.w.reg v = if more = false ∧ u = 1 ∧ e.z = 0 ∧ v = r ∧ v ≠ d.toNat then {} else s.w.reg v) ∧ OnlyL1 s t ∧
      t.myCluster.l1 = [] ∧ SameBytes s t ∧
      t = { s with clusters := t.clusters, w := { s.w with vland := now, vq := t.w.vq, vregs := t.w.vregs } }
    (32 ≤ x.toNat → e.word = wordOf (.vld m d b x u p o) → admits (x.toNat - 32)) ∧
    (e.word = wordOf (.vgath m d b x u p o) ∨ e.word = wordOf (.vgathC m d b x u p o) → admits x.toNat) ∧
    (x.toNat < 32 → u = 0 → e.word = wordOf (.vld m d b x u p o) → admits 64))

/-- R303, R407, R396, R339, R131, R170, R191, R244, R84, R338, R395, R433, R442: a VST or VSCAT, a VAMO and a BKRED at the
head of the queue send one access per active element below VL at the element's address, a store of its data (of an element that a load has
still on its way the load's, R173), an atomic with its operand and comparand whose result lands in vd, or a bank operation without result; VL is cut at a later element that
faults; charges are settled and last uses release. Operation registers with a reserved operation or scope raise ILLOP, element
widths that the operation does not have ILLFMT. What the rules leave open in it is the model's choice or reading: log entries
18 and 29. -/
def Obligations.VectorStoresTakeEffect : Prop :=
  ∀ (s : State) (e : QEntry) (m : BitVec 1) (d x : BitVec 6) (b : BitVec 5) (dl k : BitVec 1) (p o : BitVec 2), RegsOk s.w → s.w.mat = [] →
    let vl := s.w.cfg.vl
    let ew := s.w.ew
    let size := ew / 8
    let act := actives s.w m
    let elem (r j : Nat) : U64 := (s.w.reg r).elem j
    let byIndex (r j : Nat) : U64 := e.x + BitVec.ofNat 64 ((elem r j).toNat * size)
    let sends (i : Instr) (f : Nat → Except (BitVec 8) Target) (bad : Nat → Target → Bool) (spans pol3 : Bool) (addr : Nat → U64)
        (reads data : List Nat) (dest : Option Nat) (frees : List Nat) (req : Nat → Req) : Prop :=
      AtHead i e s → (∀ r ∈ reads, Readable s r act) → (∀ r ∈ data, Holds s r act) → (∀ r ∈ dest, HasRoom s r) →
      ((req 0).gath = true → engineFull s = false) → (∀ j ∈ act, Translated s (walked pol3 size (addr j))) →
      ElementTraps s act f bad pol3 addr ∧
      (∀ n, Reaches act f bad vl n →
        let l := act.filter (fun j => decide (j < n))
        let sec := sectors spans size addr f l
        TakesEffect s (fun t => LeavesQueueVm s t e (1 + ceilDiv vl 64) sec ∧ Exchanges s t (if o = 1 then 2 else 1) e.rsvS sec ∧ SameBytes s t ∧
          t.w.reqs = s.w.reqs ++ l.map (fun j => { req j with sseq := s.sseq, grp := s.sseq, tgt := place f j, size := size, va := addr j }) ∧
          t.w.vps = (if n < vl then s.w.vps.filter (fun q => decide (q.1 < n)) else s.w.vps) ∧
          (∀ r, dest ≠ some r → t.w.reg r = if n = vl ∧ vl ≠ 0 ∧ r ∈ frees then {} else s.w.reg r) ∧
          (∀ r ∈ dest, (vl = 0 → t.w.reg r = s.w.reg r) ∧ (vl ≠ 0 → (t.w.reg r).st = .live ∧ (t.w.reg r).tag = n ∧
            ∀ j, (t.w.reg r).elem j = if j < n then elem r j else 0)) ∧
          t.w.vland.map (fun l => { l with dst := .none }) = s.w.vland.map (fun l => { l with dst := .none }) ∧
          t = { s with clusters := t.clusters, sseq := s.sseq + 1, w := { s.w with
            vq := t.w.vq, bud := t.w.bud, cfg := { s.w.cfg with vl := n }, vps := t.w.vps, reqs := t.w.reqs, vregs := t.w.vregs
            vland := t.w.vland
            ctl := { s.w.ctl with rdrel := s.w.ctl.rdrel || (reads ++ data).any (fun r => (s.w.reg r).st == .released) } } }))
    let freed (r : Nat) (c : BitVec 1) : List Nat := if c = 1 then [r] else []
    let stores (i : Instr) (idx : Option Nat) (spans : Bool) (addr : Nat → U64) : Prop :=
      (s.w.landingIn [d.toNat] = true → idx ≠ some d.toNat ∧ (∀ r ∈ s.w.reqs, r.dst.inReg d.toNat = false) ∧
        ∀ r ∈ s.w.replies, r.dst.inReg d.toNat = false) →
      sends i (fun j => resolve s Acc.store (p == 3) (addr j) size) (fun _ _ => false) spans (p == 3) addr idx.toList [d.toNat] none
        (freed d.toNat dl ++ (if k = 1 then idx.toList else []))
        (fun j => { sseq := 0, grp := 0, path := if idx.isSome then .gath else .vec, tgt := .sp 0, size := 0
                    op := .store (elem d.toNat j), rel := o == 1, gath := !spans
                    src := (s.w.vland.find? (fun l => l.dst.isAt d.toNat j)).map (fun l => (l.sseq, l.elem)) })
    let op := e.z.toNat % 16
    let scope := e.z.toNat / 16 % 8
    let rights : Acc := { r := true, w := true, net := if ew = 64 ∧ scope = 4 ∧ (op = 1 ∨ op = 2) then some 4 else none }
    let atomics (idx : Option Nat) (addr : Nat → U64) : Prop :=
      let i : Instr := .vamo m d b x k p o
      let named : List Nat := d.toNat :: ((if op = 1 then [d.toNat + 1] else []) ++ idx.toList)
      (op < 10 → scope < 5 → 32 ≤ ew →
        sends i (fun j => resolve s rights (p == 3) (addr j) size) (fun _ g => s.poisonedAt g) false (p == 3) addr named [] (some d.toNat)
          (if k = 1 then idx.toList.filter (· != d.toNat) else [])
          (fun j => { sseq := 0, grp := 0, path := if idx.isSome then .gath else .vec, tgt := .sp 0, size := 0
                      op := .bank op (elem d.toNat j) (elem (d.toNat + 1) j), dst := .elem d.toNat j, rel := o == 1, acq := o == 1
                      drop := o == 1 && p != 3, gath := x != 0 })) ∧
      (AtHead i e s → 10 ≤ op ∨ 5 ≤ scope → EntryTraps s 0x01 0 e.pc) ∧
      (AtHead i e s → op < 10 → scope < 5 → (∀ r ∈ named, r < s.w.cfg.nreg) → ew < 32 → EntryTraps s 0x02 0 e.pc)
    let bankTarget (j : Nat) : Except (BitVec 8) Target :=
      let a := (byIndex x.toNat j).toNat
      if 2 ^ 60 ≤ a then .error 0x05 else if p = 3 ∨ 2 ^ 60 - 2 ^ 40 ≤ a then .error 0x07 else if a % size ≠ 0 then .error 0x06
      else translate s s.w.asid s.w.sup { r := true, w := true } a
    let reduce : Instr := .bkred m d b x k p o
    (x = 0 → stores (.vst m d dl b x k p o) none true (fun j => e.x + BitVec.ofNat 64 (j * size)) ∧
      atomics none (fun j => e.x + BitVec.ofNat 64 (j * size))) ∧
    (0 < x.toNat → x.toNat < 32 → stores (.vst m d dl b x k p o) none false (fun j => e.x + BitVec.ofNat 64 j * e.y) ∧
      atomics none (fun j => e.x + BitVec.ofNat 64 j * e.y)) ∧
    (32 ≤ x.toNat → stores (.vst m d dl b x k p o) (some (x.toNat - 32)) false (byIndex (x.toNat - 32)) ∧
      atomics (some (x.toNat - 32)) (byIndex (x.toNat - 32))) ∧
    stores (.vscat m d dl b x k p o) (some x.toNat) false (byIndex x.toNat) ∧
    (op ≠ 1 → op ≤ 10 → 32 ≤ ew → (op = 10 → ew = 32) →
      sends reduce bankTarget (fun _ g => s.poisonedAt g) false (p == 3) (byIndex x.toNat) [d.toNat, x.toNat] [] none (freed x.toNat k)
        (fun j => { sseq := 0, grp := 0, path := .bank, tgt := .sp 0, size := 0, op := .bank op (elem d.toNat j) 0, rel := o == 1 })) ∧
    (AtHead reduce e s → op = 1 ∨ 10 < op → EntryTraps s 0x01 0 e.pc) ∧
    (AtHead reduce e s → op ≠ 1 → op ≤ 10 → d.toNat < s.w.cfg.nreg → x.toNat < s.w.cfg.nreg → ew < 32 ∨ (op = 10 ∧ ew = 64) →
      EntryTraps s 0x02 0 e.pc)

/-- R185, R186, R452, R453, R184, R182, R183, R253, R333, R347: at the head of the queue WMLINK makes its link the current one with its region
base; WMPUB sends the unsigned maximum to the word's home as a release on BANK, or takes the fault of its address; BARRIVE becomes a marker,
which fires once every earlier store and atomic of VEC and GATH is performed and credits its barrier once, releasing every BWAIT that waits
for a phase which the credit completes; a barrier word that holds an error takes no credit, and the wave ECC. -/
def Obligations.WatermarksAndMarkers : Prop :=
  ∀ (s : State) (e : QEntry),
    (∀ n a b z, AtHead (.wmlink n a b z) e s → spWf ({} : Wm) 0 s.w.wm = true → TakesEffect s (fun t => LeavesQueue s t e 1 0 ∧
      (∀ k, k < 8 → spGet {} t.w.wm k = if k = n.toNat then { v := true, cur := true, esz := z, waddr := e.x.setWidth 60, base := e.y }
        else { (spGet {} s.w.wm k) with cur := false }) ∧
      t = { s with w := { s.w with vq := t.w.vq, bud := t.w.bud, wm := t.w.wm } })) ∧
    (∀ a b, AtHead (.wmpub a b) e s →
      let x := e.x.toNat
      (2 ^ 60 ≤ x → EntryTraps s 0x05 0 e.x) ∧
      (x < 2 ^ 60 → x % 8 ≠ 0 → EntryTraps s 0x06 0 e.x) ∧
      (x < 2 ^ 60 → x % 8 = 0 → 2 ^ 60 - 2 ^ 40 ≤ x → EntryTraps s 0x07 0 e.x) ∧
      (x < 2 ^ 60 - 2 ^ 40 → x % 8 = 0 → Translated s [x] →
        (∀ c, translate s s.w.asid s.w.sup Acc.atomic x = .error c → EntryTraps s c 0 e.x) ∧
        (∀ pa, translate s s.w.asid s.w.sup Acc.atomic x = .ok (.pkg pa) →
          (s.poisoned pa = true → EntryTraps s 0x0F 0 e.x) ∧
          (s.poisoned pa = false → TakesEffect s (fun t => LeavesQueueVm s t e 2 1 ∧ SameBytes s t ∧
            t = { s with sseq := s.sseq + 1, w := { s.w with vq := t.w.vq, bud := t.w.bud, reqs := s.w.reqs ++
              [{ sseq := s.sseq, grp := s.sseq, path := .bank, tgt := .pkg pa, size := 8, op := .bank 9 e.y 0, rel := true
                 va := e.x }] } }) ∧
            ∀ old, bankOp 64 9 old e.y.toNat 0 = max (old % 2 ^ 64) e.y.toNat)))) ∧
    (∀ sc a c, AtHead (.barrive sc a c) e s → TakesEffect s (fun t => LeavesQueue s t e 2 0 ∧
      t = { s with sseq := s.sseq + 1, w := { s.w with
        vq := t.w.vq, bud := t.w.bud, markers := s.w.markers ++ [{ e with z := BitVec.ofNat 64 s.sseq }] } })) ∧
    (∀ l sc a c, s.running s.w.die = true → s.w.markers = e :: l → e.word = wordOf (.barrive sc a c) →
      let before : Prop := ∀ r ∈ s.w.reqs, r.path = .vec ∨ r.path = .gath → e.z.toNat ≤ r.sseq
      let off := e.x.toNat
      let old := Memory.readN s.myTeam.sp off 8
      (before → SpHere s → off < s.myTeam.kib * 1024 → off / 8 ∉ s.myTeam.bad → ∃ t v, exec .markerFire s = .next t ∧
        WritesSp s t off v ∧ Credited old c.toNat v ∧ SameBytes s t ∧
        t = { s with teams := t.teams, others := t.others, w := { s.w with markers := l, wait := t.w.wait } } ∧
        Woken s.w.wait t.w.wait ∧ WakesOthers s t ∧
        (0 < old / 2 ^ 32 % 2 ^ 31 → old / 2 ^ 32 % 2 ^ 31 ≤ old % 2 ^ 31 + c.toNat → Releases s t off (old / 2 ^ 63))) ∧
      (before → s.myTeam.cl.isSome = true → off < s.myTeam.kib * 1024 → off / 8 ∈ s.myTeam.bad → s.w.isGone = false →
        (∀ w ∈ s.others, w.id ≠ s.w.id) → exec .markerFire s = .next { s with w := { s.w with
          markers := l, traps := s.w.traps ++ [{ src := 3, cause := 0x0F, val := 0x0FFFFF0000000000 + e.x }] } }) ∧
      (¬ before → exec .markerFire s = .refused (.notEnabled "MARKER_FIRE")))

/-- R118, R218, R220, R222, R225 to R228, R221, R127: an MMA or MMAS without epilogue at the head of the queue adds to each
word of its tile, in the selected rows from VSTART below min(VL, 64), the products of its row of A and its column of B; flags
merge, VSTART becomes 0, the entry is charged 8 ticks and is in flight until it completes; every other word, register and byte
stays but the die's note that its cluster has started matrix work (R284). A register beyond NREG is ILLOP, another element width ILLFMT. What the rules leave open in it is the model's choice or
reading: log entry 52. -/
def Obligations.MatrixProducts : Prop :=
  ∀ (s : State) (e : QEntry) (t : BitVec 2) (a b : BitVec 6) (f : BitVec 4) (r : BitVec 1) (p : BitVec 3) (x : BitVec 1), s.w.mat = [] →
    TilesOk s.w → f.toNat < 4 →
    let multiplies (i : Instr) (regs : List Nat) (col : Nat → List (Nat × Nat)) (short : Bool) : Prop := AtHead i e s →
      ((∃ v ∈ regs, s.w.cfg.nreg ≤ v) → EntryTraps s 0x01 0 e.pc) ∧
      ((∀ v ∈ regs, v < s.w.cfg.nreg) → s.w.cfg.ewc ≠ 2 → EntryTraps s 0x02 0 e.pc) ∧
      (Named s regs → s.w.cfg.ewc = 2 → TakesEffect s (fun u =>
        let on (i : Nat) : Prop := RowOn s.w s.w.cfg.vstart.toNat r i
        let new (i j : Nat) := product s.w f t.toNat a.toNat i j (col j)
        LeavesQueue s u e 8 0 ∧ SameBytes s u ∧
        (∀ i j, i < 64 → j < 64 → (on i → u.w.tile t.toNat i j = (new i j).1 % 2 ^ 32) ∧
          (¬ on i → u.w.tile t.toNat i j = s.w.tile t.toNat i j)) ∧
        (∀ k i j, k < 4 → k ≠ t.toNat → i < 64 → j < 64 → u.w.tile k i j = s.w.tile k i j) ∧
        (∀ n, u.w.cfg.fflags.getLsbD n = true ↔
          s.w.cfg.fflags.getLsbD n = true ∨ ∃ i j, on i ∧ j < 64 ∧ (new i j).2.getLsbD n = true) ∧
        u = { s with pkg := noted s, w := { s.w with
          vq := u.w.vq, bud := u.w.bud, mat := [{ e with cap := [] }], tiles := u.w.tiles
          cfg := { s.w.cfg with vstart := 0, fflags := u.w.cfg.fflags }
          ctl := { s.w.ctl with rdrel := s.w.ctl.rdrel || regs.any (fun v => (s.w.reg v).st == .released)
                                ntrans := s.w.ctl.ntrans || short } } }))
    let group (g n : Nat) : List Nat := (List.range n).map (fun k => g + k)
    multiplies (.mma t a b f r 0) (group a.toNat 8 ++ group b.toNat (if f = 1 then 4 else 8)) (denseEntries s.w f b.toNat) false ∧
    (p.toNat < 4 → multiplies (.mmas t a b f r 0 p x) (group a.toNat 16 ++ group b.toNat (sparseRegs p f + 4))
      (sparseEntries s.w f p x b.toNat) (x == 1 && nonTrans s.w b.toNat p f))

/-- R229 to R232, R364, R116, R127: MEPI captures the words that follow it with the scalars, and at the head of the queue makes them the
program in force, or raises FRAME and keeps the old one. An MMA or MMAS with E = 1 runs the program on each new word of each active row:
the state tiles take its results, the accumulator word becomes 0, and with OUT the outputs in A's format fill the output group. It is ILLOP
without a program, or where its tiles or registers clash. -/
def Obligations.EpiloguesRun : Prop :=
  (∀ (z : BitVec 2) (o p : BitVec 6) (l : BitVec 4) (rst c : BitVec 1) (t : BitVec 2) (w : BitVec 1) (s : State),
    let i : Instr := .mepi z o p l rst c t w
    let words := fetchWords s (s.w.pc + 4) (l.toNat + 1)
    let gate : Gate := { roles := [0, 2], own := true, queue := true, ticks := 2
                         await := awaitFetch 0 none ((List.range (l.toNat + 1)).map (fun k => s.w.pc + 4 + BitVec.ofNat 64 (4 * k))) }
    (∀ ws, words = .ok ws → s.w.trp.inh = false → Issues i { gate with deps := epiScalars ws } s →
      ∃ u, exec i s = .next u ∧ u.w.pc = s.w.pc + 4 + BitVec.ofNat 64 (4 * ws.length) ∧ u.w.wait = none ∧ Charged s u 2 0 ∧
        OnlyQueues s u { word := wordOf i, pc := s.w.pc, rsvT := 2, cap := ws
                         capS := (List.range 32).map (fun k => (s.w.gs (BitVec.ofNat 5 k)).setWidth 32) }) ∧
    (∀ cause va, words = .error (cause, va) → CanTrap s → Issues i gate s →
      ∃ u, exec i s = .next u ∧ TakesTrap s u 0 cause 0 0 va s.w.pc ∧ TrapLeaves s u ∧ (NoneEnding s → Charged s u 2 0)) ∧
    (∀ e, AtHead i e s →
      let bad : Prop := (c = 1 ∧ t = z) ∨ e.cap.any (epiWordBad (c == 1)) = true
      (bad → EntryTraps s 0x12 0 e.pc) ∧ (¬ bad → s.w.cfg.ewc ≠ 2 → EntryTraps s 0x02 0 e.pc) ∧
      (¬ bad → s.w.cfg.ewc = 2 → TakesEffect s (fun u => LeavesQueue s u e 2 0 ∧ SameBytes s u ∧
        u = { s with w := { s.w with vq := u.w.vq, bud := u.w.bud, mepi := some ⟨e.word, e.cap, e.capS⟩ } })))) ∧
  (∀ (s : State) (e : QEntry) (t : BitVec 2) (a b : BitVec 6) (f : BitVec 4) (r : BitVec 1) (p : BitVec 3) (x : BitVec 1), s.w.mat = [] →
    TilesOk s.w → RegsOk s.w → f.toNat < 4 → p.toNat < 4 → s.w.cfg.ewc = 2 →
    let runs (i : Instr) (regs : List Nat) (col : Nat → List (Nat × Nat)) (short : Bool) : Prop := AtHead i e s →
      ((∀ v ∈ regs, v < s.w.cfg.nreg) → s.w.mepi = none → EntryTraps s 0x01 0 e.pc) ∧
      (∀ m, s.w.mepi = some m → (m.comp = true → m.lt ≠ m.st) →
        let width := if f.toNat ≤ 1 then 8 else 16
        let outs := (List.range (2 * width)).map (fun q => m.out + q)
        let clash : Prop := t.toNat = m.st ∨ (m.comp = true ∧ t.toNat = m.lt) ∨ (m.wout = true ∧ s.w.cfg.nreg < m.out + 2 * width) ∨
          (m.params ≠ [] ∧ s.w.cfg.nreg ≤ m.par + 7)
        ((∀ v ∈ regs, v < s.w.cfg.nreg) → clash → EntryTraps s 0x01 0 e.pc) ∧
        (¬ clash → Named s (regs ++ m.params) → (m.wout = true → (∀ v ∈ outs, (s.w.reg v).st ≠ .spilled ∧ s.w.landingIn [v] = false) ∧
            (s.w.cfg.vl = 0 ∨ canAlloc s (outs.foldl (fun n v => n + s.w.grow v) 0) = true)) →
          TakesEffect s (fun u =>
            let on (i : Nat) : Prop := RowOn s.w s.w.cfg.vstart.toNat r i
            let new (i j : Nat) := product s.w f t.toNat a.toNat i j (col j)
            let clear (i : Nat) : Bool := m.rst && (s.w.mask 1).getLsbD i
            let ae (i j : Nat) : Nat × BitVec 5 :=
              if f.toNat ≤ 1 then rndEx .f32 rne ⟨sval 32 (new i j).1, 0⟩ false else ((new i j).1, 0)
            let usesAe : Bool := m.words.any (fun y => (epiSrcs y).any (fun z => bits z 0 7 == 0x45))
            let se (i j : Nat) : Nat := if clear i then 0 else s.w.tile m.st i j
            let sl (i j : Nat) : Nat := if clear i || !m.comp then 0 else s.w.tile m.lt i j
            let run (i j : Nat) := epiRun (epiRead s.w m.par m.scal (ae i j).1 j) m.words
              (spSet 0 (spSet 0 [] 16 (se i j)) 17 (sl i j)) (if usesAe then (ae i j).2 else 0)
            let out (i j : Nat) := convert 32 rne (if f.toNat ≤ 1 then .int 8 true else .flt (if f = 2 then .f16 else .e8m7)) (.flt .f32)
              (spGet 0 (run i j).1 18)
            LeavesQueue s u e (8 + m.words.length) 0 ∧ SameBytes s u ∧
            (∀ i j, i < 64 → j < 64 → (on i → u.w.tile t.toNat i j = 0 ∧ u.w.tile m.st i j = spGet 0 (run i j).1 16 % 2 ^ 32 ∧
                (m.comp = true → u.w.tile m.lt i j = spGet 0 (run i j).1 17 % 2 ^ 32)) ∧
              (¬ on i → ∀ k, k < 4 → u.w.tile k i j = s.w.tile k i j) ∧
              (∀ k, k < 4 → k ≠ t.toNat → k ≠ m.st → (m.comp = true → k ≠ m.lt) → u.w.tile k i j = s.w.tile k i j)) ∧
            (m.wout = true → s.w.cfg.vl ≠ 0 → (∀ v ∈ outs, (u.w.reg v).st = .live ∧ (u.w.reg v).tag = s.w.cfg.vl ∧
                ∀ i, i < s.w.cfg.vl → ¬ on i → (u.w.reg v).elem i = (s.w.reg v).elem i) ∧
              ∀ i j, on i → j < 64 → packed u.w m.out width i j = (out i j).1 % 2 ^ width) ∧
            (∀ v, v ∉ outs ∨ m.wout = false → u.w.reg v = s.w.reg v) ∧
            (∀ n, u.w.cfg.fflags.getLsbD n = true ↔ s.w.cfg.fflags.getLsbD n = true ∨ ∃ i j, on i ∧ j < 64 ∧
              ((new i j).2.getLsbD n = true ∨ (run i j).2.getLsbD n = true ∨ (m.wout = true ∧ (out i j).2.getLsbD n = true))) ∧
            u = { s with pkg := noted s, w := { s.w with
              vq := u.w.vq, bud := u.w.bud, mat := [{ e with cap := [m.word] }], tiles := u.w.tiles, vregs := u.w.vregs
              cfg := { s.w.cfg with vstart := 0, fflags := u.w.cfg.fflags }
              ctl := { s.w.ctl with rdrel := s.w.ctl.rdrel || (regs ++ m.params).any (fun v => (s.w.reg v).st == .released)
                                    ntrans := s.w.ctl.ntrans || short } } })))
    let group (g n : Nat) : List Nat := (List.range n).map (fun k => g + k)
    runs (.mma t a b f r 1) (group a.toNat 8 ++ group b.toNat (if f = 1 then 4 else 8)) (denseEntries s.w f b.toNat) false ∧
    runs (.mmas t a b f r 1 p x) (group a.toNat 16 ++ group b.toNat (sparseRegs p f + 4))
      (sparseEntries s.w f p x b.toNat) (x == 1 && nonTrans s.w b.toNat p f))

/-- R119, R224, R365, R366, R371, R368, R369, R218, R76: at the head of the queue MSCACC adds the scaled partial sums of each
selected row to its tile, with one rounding, and with Z clears them; MMOV moves sixteen columns of a tile's selected rows to
registers or from them; MZERO clears a tile, or all, or their selected rows; MSAVE stores a tile in its 16,384 bytes and MREST
loads it from them. Each is charged its ticks, is in flight until it completes, and changes nothing else. What the rules leave
open in it is the model's choice or reading: log entry 21. -/
def Obligations.TileInstructions : Prop :=
  ∀ (s : State) (e : QEntry), s.w.mat = [] → TilesOk s.w → RegsOk s.w →
    let sameElsewhere (u : State) (t : BitVec 2) : Prop := ∀ k i j, k < 4 → k ≠ t.toNat → i < 64 → j < 64 → u.w.tile k i j = s.w.tile k i j
    (∀ (d p : BitVec 2) (v g : BitVec 6) (f : BitVec 4) (r z : BitVec 1), AtHead (.mscacc d v g f r p z) e s → (z = 1 → d ≠ p) →
      Named s [v.toNat, g.toNat] → s.w.cfg.ewc = 2 → TakesEffect s (fun u =>
        let on (i : Nat) : Prop := RowOn s.w s.w.cfg.vstart.toNat r i
        let part (i j : Nat) : Term := if f.toNat ≤ 1 then .fin (decide (sval 32 (s.w.tile p.toNat i j) < 0)) ⟨sval 32 (s.w.tile p.toNat i j), 0⟩
          else termOf (Fmt.f32.dec (s.w.tile p.toNat i j))
        let s8 (j : Nat) : Nat := ((s.w.reg v.toNat).elem (vpOf j)).toNat % 2 ^ 8
        let scale (j : Nat) : Nat := ((s.w.reg g.toNat).elem (vpOf j)).toNat % 2 ^ 32
        let new (i j : Nat) := sumTerms [termOf (Fmt.f32.dec (s.w.tile d.toNat i j)),
          ((part i j).mul (.fin false ⟨s8 j, if f = 1 then -16 else -8⟩)).mul (termOf (Fmt.f32.dec (scale j)))]
        StartsMatrix s u e 2 0 (fun w => { w with
          tiles := u.w.tiles, cfg := { w.cfg with vstart := 0, fflags := u.w.cfg.fflags }
          ctl := { w.ctl with rdrel := w.ctl.rdrel || (s.w.reg v.toNat).st == .released || (s.w.reg g.toNat).st == .released } }) ∧
        u = { s with w := u.w, pkg := noted s } ∧
        (∀ i j, i < 64 → j < 64 → (on i → u.w.tile d.toNat i j = (new i j).1 % 2 ^ 32) ∧ (¬ on i → u.w.tile d.toNat i j = s.w.tile d.toNat i j)) ∧
        (d ≠ p → ∀ i j, i < 64 → j < 64 → (on i ∧ z = 1 → u.w.tile p.toNat i j = 0) ∧
          (¬ (on i ∧ z = 1) → u.w.tile p.toNat i j = s.w.tile p.toNat i j)) ∧
        (∀ k i j, k < 4 → k ≠ d.toNat → k ≠ p.toNat → i < 64 → j < 64 → u.w.tile k i j = s.w.tile k i j) ∧
        (∀ n, u.w.cfg.fflags.getLsbD n = true ↔
          s.w.cfg.fflags.getLsbD n = true ∨ ∃ i j, on i ∧ j < 64 ∧ (new i j).2.getLsbD n = true))) ∧
    (∀ (t : BitVec 2) (v : BitVec 6) (r : BitVec 1) (c : BitVec 2), s.w.cfg.ewc = 2 → v.toNat + 16 ≤ s.w.cfg.nreg →
      let group : List Nat := (List.range 16).map (fun k => v.toNat + k)
      let on (i : Nat) : Prop := RowOn s.w 0 r i
      (AtHead (.mmovTileToReg t v r c) e s → (∀ x ∈ group, (s.w.reg x).st ≠ .spilled ∧ s.w.landingIn [x] = false) →
        (s.w.cfg.vl = 0 ∨ canAlloc s (group.foldl (fun n x => n + s.w.grow x) 0) = true) → TakesEffect s (fun u =>
          StartsMatrix s u e 8 0 (fun w => { w with vregs := u.w.vregs }) ∧ u = { s with w := u.w } ∧
          (s.w.cfg.vl = 0 → ∀ x, u.w.reg x = s.w.reg x) ∧ (∀ x, x ∉ group → u.w.reg x = s.w.reg x) ∧
          (s.w.cfg.vl ≠ 0 → ∀ k, k < 16 → (u.w.reg (v.toNat + k)).st = .live ∧ (u.w.reg (v.toNat + k)).tag = s.w.cfg.vl ∧
            ∀ i, (on i → (u.w.reg (v.toNat + k)).elem i = BitVec.ofNat 64 (s.w.tile t.toNat i (16 * c.toNat + k))) ∧
              (¬ on i → i < s.w.cfg.vl → (u.w.reg (v.toNat + k)).elem i = (s.w.reg (v.toNat + k)).elem i)))) ∧
      (AtHead (.mmovRegToTile t v r c) e s → Named s group → TakesEffect s (fun u =>
          StartsMatrix s u e 8 0 (fun w => { w with
            tiles := u.w.tiles, ctl := { w.ctl with rdrel := w.ctl.rdrel || group.any (fun x => (s.w.reg x).st == .released) } }) ∧
          u = { s with w := u.w } ∧ sameElsewhere u t ∧
          (∀ i j, i < 64 → j < 64 → (on i ∧ j / 16 = c.toNat →
              u.w.tile t.toNat i j = ((s.w.reg (v.toNat + j % 16)).elem i).toNat % 2 ^ 32) ∧
            (¬ (on i ∧ j / 16 = c.toNat) → u.w.tile t.toNat i j = s.w.tile t.toNat i j))))) ∧
    (∀ (t : BitVec 2) (r : BitVec 1),
      let on (i : Nat) : Prop := r = 1 → RowOn s.w 0 1 i
      let clears (i : Instr) (p : Nat → Prop) : Prop := AtHead i e s → TakesEffect s (fun u =>
        StartsMatrix s u e 2 0 (fun w => { w with tiles := u.w.tiles }) ∧ u = { s with w := u.w } ∧
        ∀ k i j, k < 4 → i < 64 → j < 64 → (p k ∧ on i → u.w.tile k i j = 0) ∧ (¬ (p k ∧ on i) → u.w.tile k i j = s.w.tile k i j))
      clears (.mzero t r) (fun k => k = t.toNat) ∧ clears (.mzeroAll r) (fun _ => True)) ∧
    (∀ (t : BitVec 2) (a : BitVec 5) (p : BitVec 2), s.w.cfg.ewc = 2 → s.w.outstanding a = false → Canonical s → LinksUp s →
      let va := s.w.gs a
      Translated s (walked (p == 3) 16384 va) →
      let word (i j : Nat) : Nat := 4 * (64 * i + j)
      let moves (i : Instr) (acc : Acc) : Prop := AtHead i e s → ∀ c, resolve s acc (p == 3) va 16384 = .error c → EntryTraps s c 0 va
      moves (.msave t a p) Acc.store ∧ moves (.mrest t a p) Acc.load ∧
      (∀ pa, AtHead (.msave t a p) e s → resolve s Acc.store (p == 3) va 16384 = .ok (.pkg pa) → TakesEffect s (fun u =>
        StartsMatrix s u e 8 512 (fun w => w) ∧ u = { s with w := u.w, mem := u.mem, poison := u.poison, clusters := u.clusters } ∧
        (s.myCluster.l1 = [] → Exchanges s u 1 e.rsvS 512) ∧
        (∀ i j, i < 64 → j < 64 → Memory.readN u.mem (pa + word i j) 4 = s.w.tile t.toNat i j) ∧
        (∀ x, x < pa ∨ pa + 16384 ≤ x → Memory.read u.mem x = Memory.read s.mem x))) ∧
      (∀ off, AtHead (.msave t a p) e s → resolve s Acc.store (p == 3) va 16384 = .ok (.sp off) → SpHere s → TakesEffect s (fun u =>
        (∃ y, Woken s.w.wait y ∧ StartsMatrix { s with w := { s.w with wait := y } } u e 8 0 (fun w => w)) ∧
        u = { s with w := u.w, teams := u.teams, others := u.others, clusters := u.clusters } ∧ WakesOthers s u ∧ Exchanges s u 1 e.rsvS 0 ∧
        (∀ i j, i < 64 → j < 64 → Memory.readN u.myTeam.sp (off + word i j) 4 = s.w.tile t.toNat i j) ∧
        (∀ x, x < off ∨ off + 16384 ≤ x → Memory.read u.myTeam.sp x = Memory.read s.myTeam.sp x))) ∧
      (∀ g, AtHead (.mrest t a p) e s → resolve s Acc.load (p == 3) va 16384 = .ok g → ((∃ off, g = .sp off) → SpHere s) →
        (∀ k, k < 512 → s.poisonedAt (g.shift (32 * k)) = false) → TakesEffect s (fun u =>
          StartsMatrix s u e 8 (if g.isSector then 512 else 0) (fun w => { w with tiles := u.w.tiles }) ∧
          u = { s with w := u.w, clusters := u.clusters } ∧ Exchanges s u 1 e.rsvS (if g.isSector then 512 else 0) ∧ sameElsewhere u t ∧
          ∀ i j, i < 64 → j < 64 → u.w.tile t.toNat i j = targetRead s s.w.team (g.shift (word i j)) 4 % 2 ^ 32)))

/-- R211, R212, R213, R216, R222, R362, R369: MACQ by the owner completes; with the unit free and no earlier request it is
granted at once, otherwise it joins the ownership queue and waits until MACQ_GRANT finds its request the next of the queue;
tiles that the unit holds for another wave, on this cluster or away from it, are written to that wave's tile area first. MREL gives the unit up once the wave's
matrix instructions have completed, and waits until then. MATRIX_COMPLETE completes the oldest of them. What the rules leave
open in it is the model's choice or reading: log entry 56. -/
def Obligations.MatrixOwnership : Prop :=
  ∀ s : State, Canonical s →
    let id := s.w.id
    let c := s.myCluster
    let gate : Gate := { roles := [0, 2], noHandler := true, ticks := 2 }
    let goes (t : State) : Prop := t.w.pc = s.w.pc + 4 ∧ t.w.wait = none ∧ SameBytes s t ∧ t = { s with clusters := t.clusters, w := { s.w with
      pc := s.w.pc + 4, wait := none, bud := t.w.bud, tiles := t.w.tiles, badRows := t.w.badRows, everOwned := t.w.everOwned
      wantsMat := t.w.wantsMat } }
    let mine : Prop := c.tileOf = some id ∨ (c.tileOf = none ∧ s.w.everOwned = false)
    let idle : Prop := s.w.mat = [] ∧
      ∀ e ∈ s.w.vq, (s.w.heldBack = true ∧ e.before = true) ∨ ¬ (0xB2 ≤ opOf e.word ∧ opOf e.word ≤ 0xB9)
    (Issues .macq gate s → c.owner = some id → ∃ t, exec .macq s = .next t ∧ goes t ∧ Charged s t 2 0 ∧ t.clusters = s.clusters) ∧
    (Issues .macq gate s → c.owner = none → c.macq = [] → (∀ w ∈ s.others, w.id ≠ id) → mine →
      ∃ t, exec .macq s = .next t ∧ goes t ∧ Charged s t 2 0 ∧ OwnsMatrix s t) ∧
    (Issues .macq gate s → (∃ o, c.owner = some o ∧ o ≠ id) → ∃ t, exec .macq s = .next t ∧ t.w.wait = some (.issued .macq 0) ∧
      t.w.pc = s.w.pc ∧ Charged s t 2 0 ∧ t.myCluster = { c with macq := if id ∈ c.macq then c.macq else c.macq ++ [id] } ∧ SameBytes s t ∧
      t = { s with clusters := t.clusters, w := { s.w with bud := t.w.bud, wait := t.w.wait } }) ∧
    (Waits .macq 0 s → c.owner ≠ none → c.owner ≠ some id → id ∈ c.macq → KeepsWaiting .macq s) ∧
    (Waits .macq 0 s → MatrixTurn s → mine → ∃ t, exec .macq s = .next t ∧ (OnDuty s → exec .macqGrant s = .next t) ∧ goes t ∧
      t.w.bud = s.w.bud ∧ OwnsMatrix s t) ∧
    (∀ h s1, OnDuty s → MatrixTurn s → s.w.wait = some (.issued .macq 0) → c.tileOf = some h → h ≠ id → (∃ w ∈ s.others, w.id = h) →
      s.w.everOwned = false → LinksUp s →
      let given (t : State) : Prop := exec .macqGrant s = .next t ∧ t.mem = s1.mem ∧ t.w.tiles = [] ∧ t.w.id = id ∧ t.w.pc = s.w.pc + 4 ∧
        t.w.wait = none ∧ t.myCluster.owner = some id ∧ t.myCluster.tileOf = some id ∧ t.myCluster.kept = []
      ((∀ w ∈ s.others, w.id = h → w.place = s.w.place) → saveTiles (s.focus h) = .ok s1 →
        ∃ t, given t ∧ ∀ w ∈ t.others, w.id = h → w.tiles = []) ∧
      ((∀ w ∈ s.others, w.id = h → w.place ≠ s.w.place) → saveTileWords (s.focus h) c.kept = .ok s1 → ∃ t, given t)) ∧
    (Issues .mrel { gate with own := true } s →
      (idle → ∃ t, exec .mrel s = .next t ∧ goes t ∧ Charged s t 2 0 ∧ t.w.tiles = s.w.tiles ∧ t.myCluster = { c with owner := none }) ∧
      (¬ idle → StartsWaiting .mrel 2 0 s)) ∧
    (Waits .mrel 0 s → (idle → ∃ t, exec .mrel s = .next t ∧ goes t ∧ t.w.bud = s.w.bud ∧ t.myCluster = { c with owner := none }) ∧
      (¬ idle → KeepsWaiting .mrel s)) ∧
    (∀ e l, OnDuty s → s.w.mat = e :: l → exec .matrixComplete s = .next { s with w := { s.w with mat := l } })

/-- R331, R332, R347, R181, R183, R177, R253: a barrier operand names an offset in the scratchpad, in aperture form or itself, checked for its
range and its alignment; BARINIT writes EXPECT there with PHASE and ARRIVED 0, releasing each BWAIT that waits for PHASE to leave 1; BWAIT
completes once PHASE differs from its operand or has differed since it began to wait, dropping L1, and waits until then; a word that holds
an error traps. -/
def Obligations.BarriersInitAndWait : Prop :=
  (∀ (s : State) (x : U64),
    let off : Nat := if x.toNat / 2 ^ 40 % 2 ^ 24 = 2 ^ 20 - 1 then x.toNat % 2 ^ 40 else x.toNat
    (2 ^ 60 ≤ x.toNat → barrierOff s x = .error 0x05) ∧
    (x.toNat < 2 ^ 60 → off % 8 ≠ 0 → barrierOff s x = .error 0x06) ∧
    (x.toNat < 2 ^ 60 → off % 8 = 0 → s.myTeam.kib * 1024 ≤ off → barrierOff s x = .error 0x05) ∧
    (x.toNat < 2 ^ 60 → off % 8 = 0 → off < s.myTeam.kib * 1024 → barrierOff s x = .ok off)) ∧
  (∀ (a b : BitVec 5) (s : State), Issues (.barinit a b) { deps := [a, b], ticks := 2, mem := true } s →
    let n := (s.w.gs b).toNat
    (∀ off, 0 < n → n < 2 ^ 31 → barrierOff s (s.w.gs a) = .ok off → SpHere s → ∃ t, exec (.barinit a b) s = .next t ∧
      t.w.pc = s.w.pc + 4 ∧ t.w.wait = none ∧ Charged s t 2 0 ∧ WritesSp s t off (n * 2 ^ 32) ∧ SameBytes s t ∧
      t = { s with teams := t.teams, others := t.others, w := { s.w with pc := t.w.pc, bud := t.w.bud, wait := none } } ∧
      WakesOthers s t ∧ Releases s t off 1) ∧
    (n = 0 ∨ 2 ^ 31 ≤ n → CanTrap s → FaultsWith (.barinit a b) 2 0 0x01 s.w.pc s) ∧
    (∀ c, 0 < n → n < 2 ^ 31 → barrierOff s (s.w.gs a) = .error c → CanTrap s → FaultsWith (.barinit a b) 2 0 c (s.w.gs a) s)) ∧
  (∀ (a : BitVec 5) (p : BitVec 1) (s : State), Canonical s →
    let gate : Gate := { deps := [a], ticks := 2, mem := true }
    let goes (t : State) : Prop := t.w.pc = s.w.pc + 4 ∧ t.w.wait = none ∧ t.myCluster = { s.myCluster with l1 := [] } ∧
      (∀ d c, clKey d c ≠ clKey s.w.die s.w.cl → t.cluster d c = s.cluster d c) ∧ SameBytes s t ∧ SameQueue s t ∧
      t = { s with clusters := t.clusters, w := { s.w with pc := t.w.pc, bud := t.w.bud, wait := none, vq := t.w.vq } }
    (Waits (.bwait a p) 1 s →
      ∃ t, exec (.bwait a p) s = .next t ∧ (OnDuty s → exec .bwaitComplete s = .next t) ∧ goes t ∧ t.w.bud = s.w.bud) ∧
    (∀ c, barrierOff s (s.w.gs a) = .error c → CanTrap s → Issues (.bwait a p) gate s → FaultsWith (.bwait a p) 2 0 c (s.w.gs a) s) ∧
    (∀ off, barrierOff s (s.w.gs a) = .ok off → SpHere s →
      let done : Prop := Memory.readN s.myTeam.sp off 8 / 2 ^ 63 % 2 ≠ p.toNat
      (off / 8 ∈ s.myTeam.bad → CanTrap s → Issues (.bwait a p) gate s →
        FaultsWith (.bwait a p) 2 0 0x0F (0x0FFFFF0000000000 + BitVec.ofNat 64 off) s) ∧
      (off / 8 ∉ s.myTeam.bad → Issues (.bwait a p) gate s →
        (done → ∃ t, exec (.bwait a p) s = .next t ∧ goes t ∧ Charged s t 2 0) ∧ (¬ done → StartsWaiting (.bwait a p) 2 0 s)) ∧
      (off / 8 ∉ s.myTeam.bad → Waits (.bwait a p) 0 s →
        (done → ∃ t, exec (.bwait a p) s = .next t ∧ (OnDuty s → exec .bwaitComplete s = .next t) ∧ goes t ∧ t.w.bud = s.w.bud) ∧
        (¬ done → KeepsWaiting (.bwait a p) s))))

/-- R335, R336, R337, R131, R182, R191, R245, R472: BCOPY, charged 2 ticks and its sectors, enters its command in the cluster's
engine, unless its count is 0; a failed check traps and enters nothing, and a full engine stalls it. BCOPY_COMPLETE takes a BULK token
for each sector that the command sends, pausing on an empty bucket, and with the last one gives
every destination byte below the first fault the value that its source byte had before, changes no other byte, credits the
count to its barrier where none faults, and otherwise raises the fault on the wave at the byte's address. What the rules leave
open in it is the model's choice or reading: log entries 13 and 19. -/
def Obligations.BulkCopies : Prop :=
  (∀ (d a c b : BitVec 5) (p : BitVec 2) (s : State),
    let i : Instr := .bcopy d a c b p
    let dst := s.w.gs d
    let src := s.w.gs a
    let n := (s.w.gs c).toNat
    let side (x : U64) : Nat := if x.toNat / 2 ^ 40 % 2 ^ 24 = 2 ^ 20 - 1 then 0 else ceilDiv n 32
    let sec := side src + side dst
    let past (x : U64) : Prop := x.toNat / 2 ^ 40 = 2 ^ 20 - 1 ∧ n ≠ 0 ∧ s.myTeam.kib * 1024 < x.toNat % 2 ^ 40 + n
    (Issues i { roles := [0, 1], deps := [d, a, c, b], ticks := 2 + sec, sectors := sec, cls := some 0
                full := decide (64 ≤ s.myCluster.bulk.length), mem := true, vas := copyVas dst src } s →
      (∀ bar, copyBad s dst src n = none → copyBarrier s b = .ok bar → Canonical s → ∃ t, exec i s = .next t ∧
        t.w.pc = s.w.pc + 4 ∧ t.w.wait = none ∧ Charged s t (2 + sec) sec ∧ SameBytes s t ∧
        t.myCluster = { s.myCluster with bulk := s.myCluster.bulk ++ if n = 0 then [] else
          [{ wave := s.w.id, team := s.w.team, asid := s.w.asid, sup := s.w.sup, dst := dst, src := src, count := n, bar := bar
             pol := p.toNat }] } ∧
        (∀ d c, clKey d c ≠ clKey s.w.die s.w.cl → t.cluster d c = s.cluster d c) ∧
        t = { s with clusters := t.clusters, w := { s.w with pc := t.w.pc, bud := t.w.bud, wait := none } }) ∧
      (CanTrap s → (2 ^ 31 ≤ n → FaultsWith i (2 + sec) sec 0x01 s.w.pc s) ∧
        (n < 2 ^ 31 → 2 ^ 60 ≤ dst.toNat → FaultsWith i (2 + sec) sec 0x05 dst s) ∧
        (n < 2 ^ 31 → dst.toNat < 2 ^ 60 → 2 ^ 60 ≤ src.toNat → FaultsWith i (2 + sec) sec 0x05 src s) ∧
        (n < 2 ^ 31 → dst.toNat < 2 ^ 60 → src.toNat < 2 ^ 60 → past dst ∨ past src → ∃ v, FaultsWith i (2 + sec) sec 0x05 v s) ∧
        (∀ x, copyBad s dst src n = none → copyBarrier s b = .error x → FaultsWith i (2 + sec) sec x (s.w.gs b) s))) ∧
    (AtInstruction s → reservedCode i = false → s.w.trp.inh = false → s.w.hdr.role s.w.member = 0 ∨ s.w.hdr.role s.w.member = 1 →
      s.w.fence = none → (∀ r ∈ [d, a, c, b], s.w.outstanding r = false) →
      64 ≤ s.myCluster.bulk.length → exec i s = .next { s with w := { s.w with wait := some (.stall .engine) } })) ∧
  (∀ (s : State) (d : BitVec 4) (c k : BitVec 6) (b : Bulk) (x y : Nat → Target) (n : Nat), s.hasCluster d.toNat c.toNat = true →
    s.running d.toNat = true → s.pkg.failedLinks = [] → (s.cluster d.toNat c.toNat).bulk[k.toNat]? = some b →
    Canonical s → (s.cluster d.toNat c.toNat).l1 = [] → b.wave = s.w.id → s.w.isGone = false → (∀ w ∈ s.others, w.id ≠ s.w.id) →
    (s.team b.team).cl.isSome = true → Memory.wf (s.team b.team).sp = true →
    let v := copyView s d.toNat c.toNat b
    let left := copySectors b.dst b.src b.count - b.sent
    let rate := ((s.cluster d.toNat c.toNat).rate.entry b.asid).at 0
    let bucket := spGet (0 : Int) (s.cluster d.toNat c.toNat).tokens (tokKey b.asid 0)
    let at' (a : U64) (j : Nat) : U64 := a + BitVec.ofNat 64 j
    (0 < left → rate = 0 ∨ (rate ≠ 0xFFFF ∧ bucket ≤ 0) → exec (.bcopyComplete d c k) s = .refused (.notEnabled "BCOPY_COMPLETE")) ∧
    (rate ≠ 0 → rate ≠ 0xFFFF → 0 < bucket → bucket < left → spWf (0 : Int) 0 (s.cluster d.toNat c.toNat).tokens = true → ∃ t, exec (.bcopyComplete d c k) s = .next t ∧ t = { s with clusters := t.clusters } ∧
      (t.cluster d.toNat c.toNat).bulk = (s.cluster d.toNat c.toNat).bulk.set k.toNat { b with sent := b.sent + bucket.toNat } ∧
      spGet (0 : Int) (t.cluster d.toNat c.toNat).tokens (tokKey b.asid 0) = 0) ∧
    (left = 0 ∨ rate = 0xFFFF ∨ (rate ≠ 0 ∧ (left : Int) ≤ bucket) →
    n ≤ b.count → (∀ j < n, copyByte v copyRead (at' b.src j) = .ok (some (x j)) ∧ copyByte v copyWrite (at' b.dst j) = .ok (some (y j)) ∧
      (∀ w o, x j ≠ .win w o ∧ y j ≠ .win w o) ∧ v.poisonedAt (x j) = false) → (∀ i j, i < n → j < n → y i = y j → i = j) →
    let copied (t : State) (bar : Option Nat) : Prop := exec (.bcopyComplete d c k) s = .next t ∧
      (t.cluster d.toNat c.toNat).bulk = (s.cluster d.toNat c.toNat).bulk.eraseIdx k.toNat ∧
      (∀ j < n, (∀ off, bar = some off → ∀ q, q < 8 → y j ≠ .sp (off + q)) → byteAt t b.team (y j) = byteAt s b.team (x j)) ∧
      (∀ g, (∀ j < n, y j ≠ g) → (∀ off, bar = some off → ∀ q, q < 8 → g ≠ .sp (off + q)) → byteAt t b.team g = byteAt s b.team g) ∧
      t = { s with mem := t.mem, poison := t.poison, clusters := t.clusters, teams := t.teams, others := t.others
                   w := { s.w with traps := t.w.traps, wait := t.w.wait } } ∧ Woken s.w.wait t.w.wait ∧ WakesOthers s t
    (n = b.count → b.bar = none → ∃ t, copied t none ∧ t.w.traps = s.w.traps) ∧
    (∀ off, n = b.count → b.bar = some off → off.toNat < (s.team b.team).kib * 1024 → off.toNat / 8 ∉ (s.team b.team).bad →
      (∀ j < n, ∀ q, q < 8 → y j ≠ .sp (off.toNat + q)) → ∃ t, copied t (some off.toNat) ∧ t.w.traps = s.w.traps ∧
        Credited (Memory.readN (s.team b.team).sp off.toNat 8) b.count (Memory.readN (t.team b.team).sp off.toNat 8)) ∧
    (∀ e, n < b.count → copyByte v copyRead (at' b.src n) = .error e → ∃ t, copied t none ∧
      t.w.traps = s.w.traps ++ [{ src := 3, cause := e, val := at' b.src n }]) ∧
    (∀ g e, n < b.count → copyByte v copyRead (at' b.src n) = .ok g → copyByte v copyWrite (at' b.dst n) = .error e → ∃ t, copied t none ∧
      t.w.traps = s.w.traps ++ [{ src := 3, cause := e, val := at' b.dst n }])))

/-- R350, R351, R335, R336, R171, R191: CMDB of no command is charged 2 ticks; of more than 64 it is ILLOP; a misaligned list is ALIGN;
otherwise it waits for its list. CMDB_LIST_READ, with every descriptor in order, the budget and a BULK token there, charges 2 ticks and 2 +
S per command and S sectors and enters the commands in list order, or, where the engine has no room for all of them, keeps them until it
has; a descriptor that fails a check traps at its address with nothing entered. What the rules leave open in it is the model's choice or
reading: log entry 13. -/
def Obligations.CommandLists : Prop :=
  ∀ (a b : BitVec 5) (s : State),
    let i : Instr := .cmdb a b
    let n := (s.w.gs b).toNat
    let list := s.w.gs a
    (Issues i { roles := [0, 1], deps := [a, b], ticks := 0, mem := true } s →
      (n = 0 → s.w.trp.inh = true ∨ s.w.fitsT 2 = true → ∃ t, exec i s = .next t ∧ t.w.pc = s.w.pc + 4 ∧ t.w.wait = none ∧
        t.w.s = s.w.s ∧ Charged s t 2 0 ∧ OnlyScalars s t) ∧
      (64 < n → CanTrap s → FaultsWith i 0 0 0x01 s.w.pc s) ∧
      (0 < n → n ≤ 64 → list.toNat % 32 ≠ 0 → CanTrap s → FaultsWith i 0 0 0x06 list s) ∧
      (0 < n → n ≤ 64 → list.toNat % 32 = 0 → StartsWaiting i 0 0 s)) ∧
    (Waits i 0 s → (∀ k < 4 * n, Translated s (walked false 8 (list + BitVec.ofNat 64 (8 * k)))) →
      let answers (t : State) : Prop := exec i s = .next t ∧ (OnDuty s → NoWalk s 0 → exec .cmdbListRead s = .next t)
      (∀ l, listWords s list (4 * n) = .ok (some l) → Canonical s →
        let dw (k j : Nat) : Nat := l.getD (4 * k + j) 0
        let dst (k : Nat) : U64 := BitVec.ofNat 64 (dw k 0)
        let src (k : Nat) : U64 := BitVec.ofNat 64 (dw k 1)
        let count (k : Nat) : Nat := dw k 2 % 2 ^ 31
        let side (x : U64) (k : Nat) : Nat := if x.toNat / 2 ^ 40 % 2 ^ 24 = 2 ^ 20 - 1 then 0 else ceilDiv (count k) 32
        let sec (k : Nat) : Nat := side (src k) k + side (dst k) k
        let sum (f : Nat → Nat) : Nat := ((List.range n).map f).sum
        let credits (k : Nat) : Prop := dw k 3 / 2 ^ 63 % 2 = 1
        let off (k : Nat) : U64 := BitVec.ofNat 64 (dw k 3 % 2 ^ 40)
        let reserved (k : Nat) : Prop := dw k 2 / 2 ^ 34 % 2 ^ 30 ≠ 0 ∨ dw k 2 / 2 ^ 31 % 2 ≠ 0 ∨ dw k 2 / 2 ^ 32 % 4 = 3 ∨
          dw k 3 / 2 ^ 40 % 2 ^ 23 ≠ 0 ∨ (¬ credits k ∧ dw k 3 % 2 ^ 40 ≠ 0)
        let good (k : Nat) : Prop := ¬ reserved k ∧ copyBad s (dst k) (src k) (count k) = none ∧
          (credits k → ∃ o, barrierOff s (off k) = .ok o)
        let command (k : Nat) : Bulk :=
          { wave := s.w.id, team := s.w.team, asid := s.w.asid, sup := s.w.sup, dst := dst k, src := src k, count := count k
            bar := if credits k then some (off k) else none, pol := dw k 2 / 2 ^ 32 % 4 }
        let all : List Bulk := (List.range n).map command
        let ticks := 2 + sum (fun k => 2 + sec k)
        let fits : Prop := s.w.fence = none ∧ (sum sec = 0 ∨ s.myCluster.hasToken s.w.asid 0 = true) ∧
          (s.w.trp.inh = true ∨ (s.w.fitsT ticks = true ∧ s.w.fitsS (sum sec) = true))
        let keeps (t : State) (more : List Bulk) : Prop := SameBytes s t ∧ SameQueue s t ∧
          t.myCluster = { s.myCluster with bulk := s.myCluster.bulk ++ more, l1 := t.myCluster.l1 } ∧
          (∀ d c, clKey d c ≠ clKey s.w.die s.w.cl → t.cluster d c = s.cluster d c)
        (∀ k < n, Translated s (copyVas (dst k) (src k))) →
        ((∀ k < n, good k) → fits → s.myCluster.bulk.length + n ≤ 64 → ∃ t, answers t ∧
          t.w.pc = s.w.pc + 4 ∧ t.w.wait = none ∧ Charged s t ticks (sum sec) ∧ keeps t (all.filter (fun c => c.count != 0)) ∧
          t = { s with clusters := t.clusters, w := { s.w with pc := t.w.pc, bud := t.w.bud, wait := none, vq := t.w.vq, cmdb := [] } }) ∧
        ((∀ k < n, good k) → fits → 64 < s.myCluster.bulk.length + n → ∃ t, answers t ∧ Charged s t ticks (sum sec) ∧ keeps t [] ∧
          t = { s with clusters := t.clusters, w := { s.w with bud := t.w.bud, wait := some (.issued i 1), vq := t.w.vq, cmdb := all } }) ∧
        (∀ k, k < n → (∀ j < k, good j) → reserved k → CanTrap s → ∃ t, answers t ∧
          TakesTrap s t 0 0x01 0 0 (list + BitVec.ofNat 64 (32 * k)) s.w.pc ∧ t.myCluster.bulk = s.myCluster.bulk ∧ t.w.cmdb = s.w.cmdb)) ∧
      (∀ c v, listWords s list (4 * n) = .error (c, v) → CanTrap s → ∃ t, answers t ∧ TakesTrap s t 0 c 0 0 v s.w.pc ∧
        t.clusters = s.clusters)) ∧
    (Waits i 1 s → Canonical s →
      (s.myCluster.bulk.length + s.w.cmdb.length ≤ 64 → ∃ t, exec i s = .next t ∧ t.w.pc = s.w.pc + 4 ∧ SameBytes s t ∧
        t.myCluster = { s.myCluster with bulk := s.myCluster.bulk ++ s.w.cmdb.filter (fun c => c.count != 0) } ∧
        (∀ d c, clKey d c ≠ clKey s.w.die s.w.cl → t.cluster d c = s.cluster d c) ∧
        t = { s with clusters := t.clusters, w := { s.w with pc := t.w.pc, wait := none, cmdb := [] } }) ∧
      (64 < s.myCluster.bulk.length + s.w.cmdb.length → KeepsWaiting i s))

/-- R214, R215, R451, R182, R254: WDQ, charged 2 ticks and 1 sector, sends one request with its descriptor's physical address,
its answer word and its barrier; a check that fails traps and sends nothing. WORK_DISTRIBUTOR_REQUEST answers it with NEXT,
which goes up by one below LIMIT, or with the token; WDQ_ANSWER writes the answer to its word once and credits 8 to the
barrier; a descriptor whose sector has come to hold an error answers nothing, and the wave takes ECC. What the rules leave open in it is the
model's choice or reading: log entries 17 and 59. -/
def Obligations.WorkDistributor : Prop :=
  (∀ (a b c : BitVec 5) (s : State),
    Issues (.wdq a b c) { deps := [a, b, c], ticks := 2, sectors := 1, cls := some 2, vas := walked false 16 (s.w.gs a) } s →
    let x := (s.w.gs a).toNat
    let faults (e : BitVec 8) (v : U64) : Prop := CanTrap s → FaultsWith (.wdq a b c) 2 1 e v s
    (2 ^ 60 ≤ x → faults 0x05 (s.w.gs a)) ∧
    (x < 2 ^ 60 → x % 16 ≠ 0 → faults 0x06 (s.w.gs a)) ∧
    (x < 2 ^ 60 → x % 16 = 0 → 2 ^ 60 - 2 ^ 40 ≤ x → faults 0x07 (s.w.gs a)) ∧
    (x < 2 ^ 60 - 2 ^ 40 → x % 16 = 0 →
      (∀ e, translate s s.w.asid s.w.sup Acc.atomic x = .error e → faults e (s.w.gs a)) ∧
      (∀ pa, translate s s.w.asid s.w.sup Acc.atomic x = .ok (.pkg pa) →
        (∀ e, barrierOff s (s.w.gs b) = .error e → faults e (s.w.gs b)) ∧
        (∀ ans e, barrierOff s (s.w.gs b) = .ok ans → barrierOff s (s.w.gs c) = .error e → faults e (s.w.gs c)) ∧
        (∀ ans bar, barrierOff s (s.w.gs b) = .ok ans → barrierOff s (s.w.gs c) = .ok bar →
          (s.poisoned pa = true → faults 0x0F (s.w.gs a)) ∧
          (s.poisoned pa = false → ∃ t, exec (.wdq a b c) s = .next t ∧ t.w.pc = s.w.pc + 4 ∧ t.w.wait = none ∧ Charged s t 2 1 ∧
            OnlyTokens s t 2 1 ∧ SameBytes s t ∧ t = { s with
              clusters := t.clusters, w := { s.w with pc := t.w.pc, bud := t.w.bud, wait := none }
              wdq := s.wdq ++ [{ wave := s.w.id, team := s.w.team, desc := pa, ans := ans, bar := bar, va := s.w.gs a }] }))))) ∧
  (∀ (k : BitVec 12) (s : State) (q : Wdq), s.wdq[k.toNat]? = some q → s.pkg.failedLinks = [] →
    let next := Memory.readN s.mem q.desc 8
    let limit := Memory.readN s.mem (q.desc + 8) 8
    let token : U64 := BitVec.allOnes 64
    (q.answer = none → s.pkg.service = .running → s.poisoned q.desc = true → q.wave = s.w.id → s.w.isGone = false →
      (∀ w ∈ s.others, w.id ≠ s.w.id) → exec (.workDistributorRequest k) s = .next { s with
        wdq := s.wdq.eraseIdx k.toNat, w := { s.w with traps := s.w.traps ++ [{ src := 3, cause := 0x0F, val := q.va }] } }) ∧
    (q.answer = none → s.pkg.service = .running → s.poisoned q.desc = false → Memory.wf s.mem = true →
      ∃ t, exec (.workDistributorRequest k) s = .next t ∧
      t = { s with mem := t.mem, wdq := s.wdq.set k.toNat { q with answer := some (if next < limit then BitVec.ofNat 64 next else token) } } ∧
      Memory.readN t.mem q.desc 8 = (if next < limit then next + 1 else next) ∧
      ∀ x, x < q.desc ∨ q.desc + 8 ≤ x → Memory.read t.mem x = Memory.read s.mem x) ∧
    (∀ v, q.answer = some v → s.running (s.team q.team).die = true → (s.team q.team).cl.isSome = true →
      Memory.wf (s.team q.team).sp = true → spWf ({} : Team) 0 s.teams = true → q.bar < (s.team q.team).kib * 1024 →
      q.bar / 8 ∉ (s.team q.team).bad → q.ans + 8 ≤ q.bar ∨ q.bar + 8 ≤ q.ans → ∃ t, exec (.wdqAnswer k) s = .next t ∧
        Memory.readN (t.team q.team).sp q.ans 8 = v.toNat ∧
        Credited (Memory.readN (s.team q.team).sp q.bar 8) 8 (Memory.readN (t.team q.team).sp q.bar 8) ∧
        (∀ x, x < q.ans ∨ q.ans + 8 ≤ x → x < q.bar ∨ q.bar + 8 ≤ x →
          Memory.read (t.team q.team).sp x = Memory.read (s.team q.team).sp x) ∧
        (∀ j, j ≠ q.team → t.team j = s.team j) ∧ t = { s with
          wdq := s.wdq.eraseIdx k.toNat, teams := t.teams, others := t.others, w := { s.w with wait := t.w.wait } } ∧
        Woken s.w.wait t.w.wait ∧ WakesOthers s t))

/-! ### Block instructions -/

/-- R392 with R393, R443, R423, R419 to R422, R398, R426, R444, R437, R438, R416, R434 and R108: each integer form of an element-wise
instruction gives its active VPs the function that its entry names, at the width EW and modulo 2^EW, sets no flag, and changes nothing
else (R75, R76, R86, R127, R307). -/
def Obligations.IntegerElements : Prop :=
  ∀ (m : BitVec 1) (d : BitVec 6) (ws : BitVec 1) (a b im : BitVec 8) (s : State) (x : Issue),
    let n := s.w.ew
    let A (v : Nat) : Nat := s.w.operand a v
    let B (v : Nat) : Nat := s.w.operand b v
    let I : Nat := (im.toInt % 2 ^ n).toNat
    let runs (i : Instr) (m : BitVec 1) (l : List (BitVec 8)) (acc : Bool) (f : Nat → Nat) : Prop :=
      StepIssues i (elementGate m d ws l acc false) s x → ElementStep i (elementGate m d ws l acc false) d ws s x (fun v => (f v, 0))
    runs (.vaddI m d ws a b) m [a, b] false (fun v => (A v + B v) % 2 ^ n) ∧
    runs (.vaddiI m d ws a im) m [a] false (fun v => (A v + I) % 2 ^ n) ∧
    runs (.vsubI m d ws a b) m [a, b] false (fun v => (((A v : Int) - B v) % 2 ^ n).toNat) ∧
    runs (.vmulI m d ws a b) m [a, b] false (fun v => A v * B v % 2 ^ n) ∧
    runs (.vmacI m d ws a b) m [a, b] true (fun v => (((s.w.reg d.toNat).elem v).toNat + A v * B v) % 2 ^ n) ∧
    runs (.vminI m d ws a b) m [a, b] false (fun v => min (A v) (B v)) ∧
    runs (.vmaxI m d ws a b) m [a, b] false (fun v => max (A v) (B v)) ∧
    runs (.vminIs m d ws a b) m [a, b] false (fun v => if sval n (A v) ≤ sval n (B v) then A v else B v) ∧
    runs (.vmaxIs m d ws a b) m [a, b] false (fun v => if sval n (A v) ≤ sval n (B v) then B v else A v) ∧
    runs (.vand m d ws a b) m [a, b] false (fun v => A v &&& B v) ∧
    runs (.vandi m d ws a im) m [a] false (fun v => A v &&& I) ∧
    runs (.vor m d ws a b) m [a, b] false (fun v => A v ||| B v) ∧
    runs (.vxor m d ws a b) m [a, b] false (fun v => A v ^^^ B v) ∧
    runs (.vshl m d ws a b) m [a, b] false (fun v => A v <<< (B v % n) % 2 ^ n) ∧
    runs (.vshli m d ws a im) m [a] false (fun v => A v <<< (I % n) % 2 ^ n) ∧
    runs (.vshr m d ws a b) m [a, b] false (fun v => A v >>> (B v % n)) ∧
    runs (.vshri m d ws a im) m [a] false (fun v => A v >>> (I % n)) ∧
    runs (.vshrA m d ws a b) m [a, b] false (fun v => (sval n (A v) / 2 ^ (B v % n) % 2 ^ n).toNat) ∧
    runs (.vshriA m d ws a im) m [a] false (fun v => (sval n (A v) / 2 ^ (I % n) % 2 ^ n).toNat) ∧
    runs (.vmovi m d ws im) m [] false (fun _ => I) ∧
    runs (.vmov m d ws a) m [a] false A ∧
    runs (.viota m d ws) m [] false (fun v => v % 2 ^ n) ∧
    runs (.vsel d ws a b) 0 [a, b] false (fun v => if (s.w.masks[0]).getLsbD v then A v else B v)

/-- R392 with R103, R393, R443, R423, R414, R404, R420, R421, R441, R411, R429, R394, R403, R401: each floating form gives its
active VPs one rounding of the exact result under FRM, VEXP2, VRCP and VADDC under RNE; its flags merge; a compare writes bits
of md only; VADDC writes the sum and its exact error, which enter the latches in this order. What the rules leave open in it
is the model's choice or reading: log entries 52 and 62. -/
def Obligations.FloatingElements : Prop :=
  ∀ (m : BitVec 1) (d : BitVec 6) (ws : BitVec 1) (a b im : BitVec 8) (md c : BitVec 3) (p q : BitVec 4) (s : State) (x : Issue),
    let n := s.w.ew
    let A (v : Nat) : Nat := s.w.operand a v
    let B (v : Nat) : Nat := s.w.operand b v
    let C (v : Nat) : Nat := ((s.w.reg d.toNat).elem v).toNat
    let r := s.w.cfg.frm
    let runs (i : Instr) (width : Nat) (l : List (BitVec 8)) (acc : Bool) (f : Nat → Nat × BitVec 5) : Prop :=
      let g := elementGate m d ws l acc (width != n)
      StepIssues i g s x → ElementStep i g d ws s x f
    let holds (i : Instr) (bad : Bool) (l : List (BitVec 8)) (f : Nat → Bool × BitVec 5) : Prop :=
      let g := elementGate m 0 1 l false bad
      StepIssues i g s x → CompareStep i m md g s x f
    runs (.vaddF32 m d ws a b) 32 [a, b] false (fun v => fadd .f32 r (A v) (B v)) ∧
    runs (.vaddF16 m d ws a b) 16 [a, b] false (fun v => fadd .f16 r (A v) (B v)) ∧
    runs (.vaddE8m7 m d ws a b) 16 [a, b] false (fun v => fadd .e8m7 r (A v) (B v)) ∧
    runs (.vsubF32 m d ws a b) 32 [a, b] false (fun v => fsub .f32 r (A v) (B v)) ∧
    runs (.vsubF16 m d ws a b) 16 [a, b] false (fun v => fsub .f16 r (A v) (B v)) ∧
    runs (.vsubE8m7 m d ws a b) 16 [a, b] false (fun v => fsub .e8m7 r (A v) (B v)) ∧
    runs (.vmulF32 m d ws a b) 32 [a, b] false (fun v => fmul .f32 r (A v) (B v)) ∧
    runs (.vmulF16 m d ws a b) 16 [a, b] false (fun v => fmul .f16 r (A v) (B v)) ∧
    runs (.vmulE8m7 m d ws a b) 16 [a, b] false (fun v => fmul .e8m7 r (A v) (B v)) ∧
    runs (.vfmaF32 m d ws a b) 32 [a, b] true (fun v => ffma .f32 r (A v) (B v) (C v)) ∧
    runs (.vfmsF32 m d ws a b) 32 [a, b] true (fun v => ffma .f32 r (fneg .f32 (A v)) (B v) (C v)) ∧
    runs (.vfmaF16 m d ws a b) 16 [a, b] true (fun v => ffma .f16 r (A v) (B v) (C v)) ∧
    runs (.vfmaE8m7 m d ws a b) 16 [a, b] true (fun v => ffma .e8m7 r (A v) (B v) (C v)) ∧
    runs (.vdivF32 m d ws a b) 32 [a, b] false (fun v => fdiv .f32 r (A v) (B v)) ∧
    runs (.vminF32 m d ws a b) 32 [a, b] false (fun v => fminmax .f32 false (A v) (B v)) ∧
    runs (.vminF16 m d ws a b) 16 [a, b] false (fun v => fminmax .f16 false (A v) (B v)) ∧
    runs (.vminE8m7 m d ws a b) 16 [a, b] false (fun v => fminmax .e8m7 false (A v) (B v)) ∧
    runs (.vmaxF32 m d ws a b) 32 [a, b] false (fun v => fminmax .f32 true (A v) (B v)) ∧
    runs (.vmaxF16 m d ws a b) 16 [a, b] false (fun v => fminmax .f16 true (A v) (B v)) ∧
    runs (.vmaxE8m7 m d ws a b) 16 [a, b] false (fun v => fminmax .e8m7 true (A v) (B v)) ∧
    runs (.vsqrtF32 m d ws a) 32 [a] false (fun v => fsqrt .f32 r (A v)) ∧
    runs (.vexp2 m d ws a) 32 [a] false (fun v => fexp2 (A v)) ∧
    runs (.vrcp m d ws a) 32 [a] false (fun v => frcp (A v)) ∧
    (let g := elementGate m d ws [a] false (decide (n < (convFmt p).width) || decide (n < (convFmt q).width))
     StepIssues (.vcvt m d ws a p q) g s x →
       ElementStep (.vcvt m d ws a p q) g d ws s x (fun v => convert n r (convFmt p) (convFmt q) (A v))) ∧
    (let g : BGate := { elementGate m d ws [a, b] false (32 != n) with
       writes := if ws = 0 then [d.toNat, d.toNat + 1] else []
       bad7 := (ws == 1 && d != 0) || (ws == 0 && decide (d.toNat % 2 = 1)) }
     StepIssues (.vaddc m d ws a b) g s x →
       ∃ t, exec (.vaddc m d ws a b) s = .next t ∧ StepCommits s t x g ∧ t.w.masks = s.w.masks ∧ t.w.cfg.nzcnt = s.w.cfg.nzcnt ∧
         t.w.qseg = s.w.qseg ∧
         (ws = 0 → Written s t x d.toNat (activeOf s m x) (fun v => (fadd .f32 rne (A v) (B v)).1) ∧
           Written s t x (d.toNat + 1) (activeOf s m x) (fun v => (faddc (A v) (B v)).2.1)) ∧
         FlagsMerge s t (activeOf s m x) (fun v => (fadd .f32 rne (A v) (B v)).2) ∧
         ∀ v, t.w.latch v = if v ∈ activeOf s m x then
           (BitVec.ofNat 64 ((faddc (A v) (B v)).2.1 % 2 ^ n) :: BitVec.ofNat 64 ((fadd .f32 rne (A v) (B v)).1 % 2 ^ n) ::
             s.w.latch v).take 4 else s.w.latch v) ∧
    holds (.vcmpI m md c a b) false [a, b] (fun v => (elementHolds n c (A v) (B v), 0)) ∧
    holds (.vcmpiI m md c a im) false [a] (fun v => (elementHolds n c (A v) (im.toInt % 2 ^ n).toNat, 0)) ∧
    holds (.vcmpF32 m md c a b) (32 != n) [a, b] (fun v => fcmp .f32 c (A v) (B v)) ∧
    holds (.vcmpF16 m md c a b) (16 != n) [a, b] (fun v => fcmp .f16 c (A v) (B v)) ∧
    holds (.vcmpE8m7 m md c a b) (16 != n) [a, b] (fun v => fcmp .e8m7 c (A v) (B v))

/-- R40 with R427, R402, R424, R430 to R432, R120, R121, R341 and R342: the cross-element instructions combine the elements of the
executing VPs in ascending order, reading every source before any write; each is a step of the whole block, and changes only its
destination, latches, flags and, for VNZSCAN, NZCNT. -/
def Obligations.CrossElements : Prop :=
  ∀ (m : BitVec 1) (d : BitVec 6) (ws : BitVec 1) (a b c : BitVec 8) (z : BitVec 1) (s : State) (x : Issue) (e : List Nat),
    e.Perm x.vps → e.Pairwise (· < ·) → e.length ≤ 8192 →
    let n := s.w.ew
    let A (v : Nat) : Nat := s.w.operand a v
    let B (v : Nat) : Nat := s.w.operand b v
    let act : List Nat := e.filter (fun v => m == 0 || (s.w.masks[0]).getLsbD v)
    let gate (ws : BitVec 1) (l : List (BitVec 8)) (bad : Bool) : BGate := { elementGate m d ws l false bad with cross := true }
    let nz := s.w.cfg.nzcnt
    (let g : BGate := { gate ws [a, b] false with readAll := true }
     StepIssues (.vperm m d ws a b) g s x → ResultStep (.vperm m d ws a b) g d ws s x (activeOf s m x)
       (fun v => (if B v < s.w.cfg.vl ∧ B v ∈ e then A (B v) else 0, 0)) nz) ∧
    (let g : BGate := { gate 0 [a] false with writeAll := true }
     StepIssues (.vcompress m d a) g s x →
      ResultStep (.vcompress m d a) g d 0 s x x.vps (fun v => ((act.map A).getD (e.idxOf v) 0, 0)) nz) ∧
    (let ys := act.filter (fun v => if z = 0 then A v != 0 else A v % 2 ^ (n - 1) != 0)
     let g : BGate := { gate 0 [a] (n == 8) with writeAll := true }
     StepIssues (.vnzscan m d a z) g s x →
      ResultStep (.vnzscan m d a z) g d 0 s x x.vps (fun v => (ys.getD (e.idxOf v) 0, 0))
        (BitVec.ofNat 14 ys.length)) ∧
    (StepIssues (.vred m d a c) (gate 0 [a] (badReduction n c.toNat)) s x →
      ∃ r, Reduced n c.toNat (act.map A) r ∧
        ResultStep (.vred m d a c) (gate 0 [a] (badReduction n c.toNat)) d 0 s x (activeOf s m x) (fun _ => r) nz) ∧
    (StepIssues (.vscan m d a c) (gate 0 [a] (badReduction n c.toNat)) s x →
      ResultStep (.vscan m d a c) (gate 0 [a] (badReduction n c.toNat)) d 0 s x (activeOf s m x)
        (fun v => scanResult n c.toNat (act.map A) (act.idxOf v)) nz) ∧
    (StepIssues (.bmand m d ws a b) (gate ws [a, b] false) s x →
      ResultStep (.bmand m d ws a b) (gate ws [a, b] false) d ws s x (activeOf s m x)
        (fun v => (((act.filter (fun u => decide (u ≤ v))).map (fun u =>
          (List.range n).countP (fun k => (A u &&& B u).testBit k))).sum % 2 ^ n, 0)) nz) ∧
    (let isSet (p : Nat) : Bool := act.contains (p / n) && (A (p / n)).testBit (p % n)
     let rank (p : Nat) : Nat := (List.range p).countP isSet
     StepIssues (.bmpos m d ws a b) (gate ws [a, b] false) s x →
      ∃ f : Nat → Nat, (∀ v ∈ act, (∀ p, isSet p = true → rank p = B v → f v = min p (2 ^ n - 1)) ∧
          ((∀ p, isSet p = true → rank p ≠ B v) → f v = 2 ^ n - 1)) ∧
        ResultStep (.bmpos m d ws a b) (gate ws [a, b] false) d ws s x (activeOf s m x) (fun v => (f v, 0)) nz)

/-- R389, R250, R428, R32, R305 to R307, R446, R52, R439, R200: THFETCH latches each active VP's target and raises the AIB
trap at the wave's 2,049th distinct address; VPSTOP sends active VPs to the block's end without a target; REPF checks its
frame in the order of R306; VXSEND pushes each active VP's element toward the next VP or the take queue; VSPAWN offers a
launch for each active VP, and md shows those that were queued when the headers have been read. What the rules leave open in
it is the model's choice or reading: log entries 27 and 51. -/
def Obligations.BlockControl : Prop :=
  ∀ (m : BitVec 1) (a b : BitVec 8) (s : State) (x : Issue),
    let A (v : Nat) : Nat := s.w.operand a v
    let act := activeOf s m x
    let fetches (i : Instr) (g : BGate) (T : Nat → U64) : Prop :=
      StepIssues i g s x →
      (((s.w.addresses ++ act.map T).eraseDups).length ≤ 2048 →
        ∃ t, exec i s = .next t ∧ WritesNothing s t ∧
          StepGoes s t x g (fun v tg => nextState x (if v ∈ act then some (T v, x.pos + 1) else tg))) ∧
      (∀ v, act = [v] →
        let held := (s.w.setVp v (.run x.run.id x.pos x.rep none false)).addresses
        T v ∉ held → 2048 ≤ held.length → StepTraps i s x 0x13 v)
    (∀ o, fetches (.thfetch m o) { m := m } (fun _ => target x.addr o.toInt)) ∧
    (∀ r, fetches (.thfetchReg m r a) { m := m, srcs := [a], deps := [r] } (fun v => s.w.gs r + 4 * BitVec.ofNat 64 (A v))) ∧
    (StepIssues (.vpstop m) { m := m } s x → x.pos < x.run.words.length →
      ∃ t, exec (.vpstop m) s = .next t ∧ WritesNothing s t ∧
        StepGoes s t x { m := m } (fun v tg => if v ∈ act then .run x.run.id x.run.words.length 0 none false else nextState x tg)) ∧
    (∀ c str l, encode (.repf c str l) = some x.word →
      let body := (x.run.words.drop (x.pos + 1)).take (l.toNat + 1)
      let past : Prop := x.run.words.length < x.pos + 1 + (l.toNat + 1)
      let reserved : Prop := ∃ w ∈ body, decodeWord w.toNat = none
      let outside : Prop := ∃ w ∈ body, ¬ (0x50 ≤ opOf w ∧ opOf w ≤ 0x8C) ∨ (0x69 ≤ opOf w ∧ opOf w ≤ 0x70)
      let queues : Prop := ∃ w ∈ body, ∃ z ∈ srcBytes w, z = 0x44 ∨ z = 0x45
      let reaches : Prop := ∃ w ∈ body, frameRegsBad s.w.cfg.nreg (c.toNat * str.toNat) str.toNat w = true
      (StepIssues (.repf c str l) {} s x → ¬ past → ¬ reserved → ¬ outside → ¬ queues → ¬ reaches →
        ∃ t, exec (.repf c str l) s = .next t ∧ WritesNothing s t ∧ StepCommits s t x {}) ∧
      (currentIssue s = some x →
        let traps (cause : BitVec 8) : Prop := StepTraps (.repf c str l) s x cause (x.vps.headD 0)
        (past → traps 0x12) ∧ (¬ past → reserved → traps 0x01) ∧ (¬ past → ¬ reserved → outside → traps 0x12) ∧
        (¬ past → ¬ reserved → ¬ outside → queues → traps 0x12) ∧
        (¬ past → ¬ reserved → ¬ outside → ¬ queues → reaches → traps 0x01))) ∧
    (let g : BGate := { m := m, srcs := [a], idemBad := true, qseg := true }
     let sent (v : Nat) : XEntry :=
       { bnd := if v + 1 = s.w.cfg.vl then takeBnd else (v + 1) % s.w.lanes
         vp := if v + 1 = s.w.cfg.vl then v else v + 1
         val := BitVec.ofNat 64 (A v) }
     StepIssues (.vxsend m a) g s x →
       (∀ v ∈ act, (s.w.boundary (sent v).bnd).length < 4) →
       ∃ t, exec (.vxsend m a) s = .next t ∧ StepCommits s t x g ∧ t.w.masks = s.w.masks ∧ t.w.latches = s.w.latches ∧
         t.w.cfg = s.w.cfg ∧ t.w.qseg = (if act = [] then s.w.qseg else .live) ∧
         t.w.xq.filter (fun e => e.bnd == takeBnd) =
           s.w.xq.filter (fun e => e.bnd == takeBnd) ++ (act.map sent).filter (fun e => e.bnd == takeBnd) ∧
         ∀ v, let mine (l : List XEntry) := l.filter (fun e => e.vp == v && e.bnd != takeBnd)
           mine t.w.xq = (if a = 0x44 ∧ v ∈ act then (mine s.w.xq).tail else mine s.w.xq) ++ mine (act.map sent)) ∧
    (∀ md (e : List Nat), e.Perm x.vps → e.Pairwise (· < ·) →
      let g : BGate := { m := m, srcs := [a, b], idemBad := true, bad9 := s.w.ew != 64 }
      StepIssues (.vspawn m md a b) g s x → s.w.offers = none →
      (∀ y ∈ s.w.runVps x.run.id, y.1 ∈ x.vps ∧ ∃ tg bl, y.2 = .run x.run.id x.pos x.rep tg bl) →
      ∃ t, exec (.vspawn m md a b) s = .next t ∧ WritesNothing s t ∧
        StepCommits s { t with w := { t.w with offers := none } } x g ∧
        t.w.offers = some ⟨md, x.run.id, linOf x.run.words x.pos x.rep, x.vps,
          (e.filter (fun v => m == 0 || (s.w.masks[0]).getLsbD v)).map (fun v =>
            (v, BitVec.ofNat 64 (A v), BitVec.ofNat 64 (s.w.operand b v)))⟩) ∧
    (∀ o, s.w.offers = some o → OnDuty s → headerReady s = true → (∀ d r q ph, s.w.wait ≠ some (.issued (.spawn d r q) ph)) →
      o.list.Pairwise (fun y z => y.1 < z.1) → (∀ y ∈ o.list, y.1 < 8192) → Canonical s → LinksUp s →
      (∀ y ∈ o.list, Translated s (walked false 64 y.2.1)) → NoWalk s (2 + o.vps.headD 0 % s.w.lanes) →
      ∃ t, exec .launchHeaderRead s = .next t ∧ t.w.offers = none ∧ SameBytes s t ∧ t.w.s = s.w.s ∧ t.w.pc = s.w.pc ∧
        (∀ (k : BitVec 3), k ≠ o.md → t.w.mask k = s.w.mask k) ∧
        (∀ v, (t.w.mask o.md).getLsbD v = true → ∃ y ∈ o.list, y.1 = v) ∧
        (∀ v va arg, o.list = [(v, va, arg)] → (t.w.mask o.md).getLsbD v = true →
          ∃ g h, headerAt s va = .ok (g, h) ∧ h.invalid false = false ∧ h.pkg = false ∧
            ((s.die s.w.die).tasks.filter (fun l => l.hdr.cls == h.cls)).length < 4096) ∧
        (∀ k, k ≠ s.w.die → (t.die k).tasks = (s.die k).tasks) ∧
        ∃ l, (t.die s.w.die).tasks = (s.die s.w.die).tasks ++ l ∧
          l.length = (List.range 8192).countP (fun v => (t.w.mask o.md).getLsbD v))

/-! ### Events of the lanes and of the register pool -/

/-- R43 to R46, R128, R246, R32, R33, R42, R54, R448: THREAD_BLOCK_START, on a lane that is idle, starts for its VPs at the address of highest
priority and then lowest address the block there, with its reservation deducted, or reports exhaustion; the serial VP goes first;
ENTRY_STARVATION_ISSUE starts an entry ahead of the order; a suspended entry goes on. QUEUE_BLOCK_SUSPEND leaves a blocked entry with its
latches invalid. By BLOCK_COMPLETE a VP at the end of its block, the first of them by lane and slot, becomes idle, parked or takes its
target; a deadlock of the cross-element queues raises the AIB trap. R91, R93, R94: the spill engine writes the victim register of the
victim wave to its save area and marks it spilled, other registers and waves staying as they are; a refill reads a spilled
register back with its length tag where the segments are there; a refill that faults raises PAGE or PERM with SRC 3 and leaves
the register spilled. What the rules leave open in it is the model's choice or reading: log entries 49, 59 and 63. -/
def Obligations.LaneAndSpillEvents : Prop :=
  (∀ s : State,
     (∀ l : BitVec 4,
       let j := l.toNat
       let waits (a : U64) : List Nat :=
         (s.w.vps.filter (fun e => decide (e.1 % s.w.lanes = j ∧ e.2 = .thread a) && !s.w.dbg.vps.contains e.1)).map Prod.fst
       let fresh (a : U64) : Prop := s.w.suspendedRun j a = none
       (∀ e ∈ s.w.frontier, LaneIdle s j → MayBegin s → s.w.ctl.serial = false → waits e.addr ≠ [] → (∀ f ∈ s.w.frontier, fresh f.addr) →
         (∀ f ∈ s.w.frontier, waits f.addr ≠ [] → f.prio < e.prio ∨ (f.prio = e.prio ∧ e.addr.toNat ≤ f.addr.toNat)) →
         LaneTakes (.threadBlockStart l) s j e.addr (waits e.addr) s.w.serialVp) ∧
       (∀ v a, LaneIdle s j → MayBegin s → s.w.ctl.serial = true → s.w.serialVp = none → s.w.serialList.head? = some v →
         v % s.w.lanes = j → v ∉ s.w.dbg.vps → s.w.vp v = some (.thread a) → fresh a →
         LaneTakes (.threadBlockStart l) s j a [v] (some v)) ∧
       (∀ e r, LaneIdle s j → s.w.ctl.serial = false → s.w.frontier = [e] → s.w.suspendedRun j e.addr = some r →
         exec (.threadBlockStart l) s = .next { s with w := { s.w with
           runs := s.w.runs.map (fun q => if q.id = r.id then { r with suspended := false } else q) } }) ∧
       (∀ (k : BitVec 4) (e : Entry), LaneIdle s j → MayBegin s → s.w.frontier[k.toNat]? = some e → waits e.addr ≠ [] → fresh e.addr →
         LaneTakes (.entryStarvationIssue l k) s j e.addr (waits e.addr) s.w.serialVp) ∧
       (∀ (k : BitVec 4) (e : Entry) (r : Run), LaneIdle s j → s.w.frontier[k.toNat]? = some e → s.w.suspendedRun j e.addr = some r →
         exec (.entryStarvationIssue l k) s = .next { s with w := { s.w with
           runs := s.w.runs.map (fun q => if q.id = r.id then { r with suspended := false } else q) } }) ∧
       (∀ r, OnDuty s → s.w.runs.find? (s.w.stuckOn j) = some r →
         ∃ t, exec (.queueBlockSuspend l) s = .next t ∧ SameBytes s t ∧ t.w.vps = s.w.vps ∧ t.w.xq = s.w.xq ∧
           t.w.runs = s.w.runs.map (fun q => if q.id = r.id then { r with suspended := true } else q) ∧
           (∀ e ∈ s.w.runVps r.id, t.w.latch e.1 = []) ∧
           (∀ v, (∀ e ∈ s.w.runVps r.id, e.1 ≠ v) → t.w.latch v = s.w.latch v) ∧
           t = { s with w := { s.w with runs := t.w.runs, latches := t.w.latches } })) ∧
     (∀ (u : BitVec 13) (r : Run) pos rep tg bl,
       let v := u.toNat
       OnDuty s → s.w.trp.inh = false → s.w.vp v = some (.run r.id pos rep tg bl) → s.w.run? r.id = some r → r.words.length ≤ pos →
       s.w.offers = none → s.w.vps.Pairwise (fun y z => y.1 < z.1) →
       s.w.ending.find? (fun u => (endWaits s u).isNone) = some v → NoWalk s (2 + v % s.w.lanes) →
       ∃ t, exec (.blockComplete u) s = .next t ∧ SameBytes s t ∧ t.w.latch v = [] ∧ (∀ x, x ≠ v → t.w.vp x = s.w.vp x) ∧
         t.w.pc = s.w.pc ∧ t.w.s = s.w.s ∧ t.w.vq = s.w.vq ∧
         ((∀ e ∈ s.w.vps, e.2.runId = some r.id → e.1 = v) →
           (∀ q ∈ t.w.runs, q.id ≠ r.id) ∧
           t.w.bud = if r.kind = .catchGroup ∨ r.kind = .resent then s.w.bud else { s.w.bud with
             ibgt := s.w.bud.ibgt + BitVec.ofNat 64 r.rsvT - BitVec.ofNat 64 r.ticks
             mbgt := s.w.bud.mbgt + BitVec.ofNat 64 r.rsvS - BitVec.ofNat 64 r.sect }) ∧
         ((∃ e ∈ s.w.vps, e.2.runId = some r.id ∧ e.1 ≠ v) → (∃ q ∈ t.w.runs, q.id = r.id) ∧ t.w.bud = s.w.bud) ∧
         (tg = none → t.w.vp v = none ∧ t.w.traps = s.w.traps ∧ t.w.masks = s.w.masks) ∧
         (∀ a iw, tg = some (a, iw) →
           (∀ h, checkHeader s a = .ok h → t.w.traps = s.w.traps ∧ t.w.masks = s.w.masks ∧
             (hdrCatch h = true → t.w.vp v = some (.parked a)) ∧
             (hdrCatch h = false → t.w.vp v = some (.thread a) ∧ ((∃ e ∈ t.w.frontier, e.addr = a) ∨ t.w.ctl.serial = true))) ∧
           (∀ c, checkHeader s a = .error c →
             (c = 0x05 ∨ c = 0x07 → t.w.vp v = none ∧ (t.w.mask 7).getLsbD v = true ∧ t.w.traps = s.w.traps) ∧
             (c ≠ 0x05 → c ≠ 0x07 → t.w.vp v = some (.pend a iw) ∧ t.w.masks = s.w.masks ∧
               t.w.traps = s.w.traps ++ [{ src := 1, cause := c, iw := iw, vp := v, val := a, vps := [v] }])))) ∧
     (let onlyBlocked : Prop := (∃ e ∈ s.w.vps, e.2.isBlocked = true) ∧
        ∀ e ∈ s.w.vps, (∃ a, e.2 = .parked a) ∨ (∃ a, e.2 = .caught a ∧ ∃ f ∈ s.w.fetches, f.addr = a ∧ f.resent = false) ∨
          (e.2.isBlocked = true ∧ s.w.unblocks e.1 = false)
      let taking (d : BitVec 5) (p : Nat) : Prop := s.w.wait = some (.issued (.vxtake d) p) ∧ s.w.boundary takeBnd = [] ∧ s.w.qseg ≠ .spilled
      let raises (i : Instr) (src : Nat) : Prop :=
        exec i s = .next { s with w := { s.w with traps := s.w.traps ++ [{ src := src, cause := 0x13 }] } }
      mayTrap s = true →
      (∀ d p, onlyBlocked → s.w.wait = some (.issued (.vcatch d) p) → raises .queueDeadlockTrap 3) ∧
      (onlyBlocked → s.w.wait = some (.stall .queue) → 32 ≤ s.w.queued → raises .queueDeadlockTrap 3) ∧
      (∀ r, onlyBlocked → s.w.wait = some (.stall (.scalar r)) → (∃ e ∈ s.w.vq, queueDest e.word = some r) → raises .queueDeadlockTrap 3) ∧
      (∀ d p, taking d p → s.w.quiescent = true → s.w.vq = [] → s.w.fetches = [] → raises .queueDeadlockTrap 3) ∧
      (∀ d p, taking d p → onlyBlocked → raises .vxtakeDeadlockTrap 2))) ∧
  (∀ s : State,
     (∀ vic v x, OnDuty s → poolHas s (segsWanted s.w) = false → victimWave s = some vic → victimReg vic = some v → v < 64 →
       LinksUp s → spillOwn (s.focus vic.id) v = .ok x →
       let y := (x.setMyCluster { x.myCluster with spills := x.myCluster.spills + 1 }).focus s.w.id
       poolHas y (segsWanted s.w) = true → (s.waves.map Wave.id).Nodup → spWf ({} : VReg) 0 vic.vregs = true →
       exec .spillEngine s = .next { y with w := { y.w with segNeed := 0 } } ∧
       (∃ w ∈ y.waves, w.id = vic.id ∧ (w.reg v).st = .spilled ∧ (w.reg v).tag = (vic.reg v).tag ∧ ∀ r, r ≠ v → w.reg r = vic.reg r) ∧
       ∀ w ∈ s.waves, w.id ≠ vic.id → ∃ u ∈ y.waves, Woken w.wait u.wait ∧ u = { w with wait := u.wait }) ∧
     (∀ u : BitVec 7,
       let v := u.toNat
       OnDuty s → v < 64 → v ∈ s.w.want → (s.w.reg v).st = .spilled → canAlloc s (refillSegs s.w v) = true → s.w.spillBad = false →
       LinksUp s → spWf ({} : VReg) 0 s.w.vregs = true →
       let spill := spanPas s Acc.load (s.saveArea + 0x10000 * (v + 1)) ((s.w.reg v).tag * (s.w.ew / 8))
       (∀ pas, spill = .ok pas → ∃ t, exec (.refill u) s = .next t ∧ t.mem = s.mem ∧ t.w.want = s.w.want.filter (· != v) ∧
         t.w.reg v = { s.w.reg v with st := .live, elems := regRestore s pas s.w.ew (s.w.reg v).tag } ∧
         (∀ r, r ≠ v → t.w.reg r = s.w.reg r) ∧ t.w.bud = s.w.bud ∧ t.w.pc = s.w.pc ∧ t.w.s = s.w.s) ∧
       (∀ e, spill = .error e → exec (.refill u) s = .next { s with w := { s.w with
         spillBad := true, traps := s.w.traps ++ [{ src := 3, cause := e.1, val := e.2, spill := true }] } })))

/-! ### Traps, pre-emption, forced entry and saves at the control thread's boundary -/

/-- R236, R237, R240, R132, R134, R136, R137, R142, R143, R239: of the pending traps the one of SRC 2, then the lowest VP of
SRC 1, then the oldest of SRC 3 is entered; a double trap whose context can be written removes the wave; a pre-emption request
zeroes IBGT, discards a pending exhaustion and resolves every block; forced entry records XPC and XCAUSE, grants 256 ticks and
64 sectors and runs the continuation; in a continuation, on expiry of the grace timer and at the limit of a handler the wave
is saved. What the rules leave open in it is the model's choice or reading: log entries 12, 15, 24, 39 and
50. -/
def Obligations.TrapsAndForcedEntry : Prop :=
  ∀ s : State, OnDuty s →
    let calm : Prop := s.w.doubleCause = none ∧ s.w.saveFault = false ∧ s.w.atBoundary = true
    let aside : Prop := s.w.wait = none ∨ (∃ why, s.w.wait = some (.stall why)) ∨ ∃ i, isFence i = true ∧ s.w.wait = some (.issued i 1)
    (∀ p : PTrap, calm → s.w.trp.inh = false → s.w.frozen = false → s.w.leaving = false → (s.die s.w.die).trapvec ≠ 0 → p ∈ s.w.traps →
      (p.src = 2 → s.w.traps.find? (fun q => q.src == 2) = some p) →
      (p.src ≠ 2 → ∀ q ∈ s.w.traps, q.src ≠ 2) →
      (p.src = 1 → ∀ q ∈ s.w.traps, q.src = 1 → q ≠ p → p.vp < q.vp) →
      (p.src ≠ 2 → p.src ≠ 1 → s.w.traps.head? = some p ∧ ∀ q ∈ s.w.traps, q.src ≠ 1) →
      ∃ t, exec .trapEntry s = .next t ∧
        TakesTrap s t p.src p.cause (if p.src = 3 then 0 else p.vp) (if p.src = 1 then p.iw else 0) p.val
          (interruptedAt s.w) ∧
        SameBytes s t ∧ t.w.s = s.w.s ∧ t.w.traps = (if p.src = 3 then s.w.traps.erase p else s.w.traps).filter (fun q => q.src == 3) ∧
        (s.w.wait = none → TrapLeaves s t ∧ (NoneEnding s → t.w.bud = s.w.bud))) ∧
    (∀ c v s1,
      let rest (b : U64) : U64 := if s.w.ctl.incont = true ∨ b.toInt < 0 then 0 else b
      s.w.doubleCause = some (c, v) → s.w.saveFault = false → NothingOpen s → s.w.replies = [] → s.w.markers = [] → s.w.offers = none →
      s.w.fence = none → LinksUp s →
      saveContext { s with w := { s.w with bud := { s.w.bud with remT := rest s.w.bud.ibgt, remS := rest s.w.bud.mbgt } } } s.w.pc = .ok s1 →
      ∃ t, exec .trapEntry s = .next t ∧ t.w.place = .gone s1.w.die s1.w.cl ∧ t.w.vregs = [] ∧ t.w.vps = [] ∧ t.w.vq = []) ∧
    (s.w.bud.preemptSent = true →
      let later : Prop := s.w.trp.inh = true ∨ ∃ p ∈ s.w.traps, p.src ≠ 3
      (later → exec .preemptionRequest s =
        .next { s with w := { s.w with bud := { s.w.bud with preemptSent := false, preempt := true, deferred := true } } }) ∧
      (¬ later → ∃ t, exec .preemptionRequest s = .next t ∧ SameBytes s t ∧ t.w.pc = s.w.pc ∧ t.w.s = s.w.s ∧ t.w.vq = s.w.vq ∧
        t.w.bud.preempt = true ∧ t.w.bud.preemptSent = false ∧ t.w.bud.exhaust = none ∧ t.w.mayBegin = false ∧ t.w.traps = s.w.traps ∧
        (s.w.runs = [] → t.w.bud = { s.w.bud with ibgt := 0, exhaust := none, preempt := true, preemptSent := false } ∧ t.w.vps = s.w.vps) ∧
        ∀ r, s.w.runs = [r] → r.stopped = false →
          let drains : Prop := (∀ j, j < s.w.lanes → s.w.stepsLeft r j ≤ 16) ∧ s.w.noDrain r = false
          let flushes : Prop := r.idem = true ∧ 2 * r.steps < r.total
          let held : Prop := s.w.debugHolds r = true
          (¬ held → drains → t.w.runs = [r] ∧ t.w.vps = s.w.vps) ∧
          (¬ held → ¬ drains → flushes → t.w.runs = [] ∧ ∀ v,
            (InFlush s.w r v → t.w.vp v = some (if r.kind.isThread then .thread r.addr else .caught r.addr)) ∧
            (¬ InFlush s.w r v → t.w.vp v = s.w.vp v)) ∧
          (held ∨ ¬ drains ∧ ¬ flushes → t.w.runs = [{ r with stopped := true, suspended := false }] ∧ t.w.vps = s.w.vps ∧
            ∀ e ∈ s.w.runVps r.id, t.w.latch e.1 = []))) ∧
    (calm → s.w.trp.inh = false → s.w.departing = false → s.w.traps = [] → aside → LinksUp s →
      let entry (c : BitVec 8) : Prop :=
        let at' : BitVec 60 := (interruptedAt s.w).setWidth 60
        (∀ a, s.w.ctl.incont = false → contEntry s = some a →
          ∃ t, exec .forcedEntry s = .next t ∧ SameBytes s t ∧ t.w.s = s.w.s ∧ t.w.pc = a ∧ t.w.wait = none ∧ t.w.ctl.incont = true ∧
            t.w.bud.ibgt = 256 ∧ t.w.bud.mbgt = 64 ∧ t.w.bud.grace = true ∧ t.w.bud.xpc = at' ∧ t.w.bud.xcause = c ∧
            t.w.bud.exhaust = none ∧ t.w.bud.preempt = false ∧ t.w.vq = s.w.vq.map (fun e => { e with before := true }) ∧
            t.w.fetches = s.w.fetches.map (fun f => { f with before := true })) ∧
        (s.w.ctl.incont = false → contEntry s = none →
          ∃ t, exec .forcedEntry s = .next t ∧ SameBytes s t ∧ t.w.leaving = true ∧ t.w.savePc = at'.setWidth 64 ∧
            t.w.bud.xpc = at' ∧ t.w.bud.xcause = c ∧ t.w.recCause = none) ∧
        (s.w.ctl.incont = true →
          ∃ t, exec .forcedEntry s = .next t ∧ SameBytes s t ∧ t.w.leaving = true ∧ t.w.savePc = s.w.bud.xpc.setWidth 64 ∧
            t.w.bud.xpc = s.w.bud.xpc ∧ t.w.bud.xcause = s.w.bud.xcause ∧ t.w.recCause = none)
      (s.w.bud.preempt = true → s.w.runs = [] → entry 0x22) ∧
      (∀ c, s.w.bud.preempt = false → s.w.bud.exhaust = some c → s.w.frozen = false → entry c)) ∧
    (s.w.ctl.incont = true → s.w.bud.grace = true → s.w.departing = false → s.w.anyStopped = false → exec .graceTimerExpiry s =
      .next { s with w := { s.w with bud := { s.w.bud with grace := false, graceHit := true } } }) ∧
    (calm → s.w.bud.graceHit = true → s.w.trp.inh = false → s.w.departing = false → s.w.traps = [] → s.w.anyStopped = false →
      ∃ t, exec .forcedFullSave s = .next t ∧ SameBytes s t ∧ t.w.leaving = true ∧ t.w.savePc = s.w.bud.xpc.setWidth 64 ∧
        t.w.recCause = none ∧ t.w.wait = none ∧ t.w.bud.graceHit = false ∧ t.w.s = s.w.s) ∧
    (s.w.leaving = true → s.w.saveFault = false → s.w.runs = [] → (∀ e ∈ s.w.vps, s.w.atEnd e.1 = false) → NothingOpen s →
      s.w.replies = [] → s.w.markers = [] → s.w.offers = none → s.w.fence = none → LinksUp s →
      (∃ w ∈ s.others, w.team = s.w.team ∧ w.isResident = true) →
      let rest (b : U64) : U64 := if s.w.ctl.incont = true ∨ b.toInt < 0 then 0 else b
      ∀ s1, saveContext { s with w := { s.w with
          traps := s.w.traps.filter (fun q => q.src == 3)
          bud := { s.w.bud with remT := rest s.w.bud.ibgt, remS := rest s.w.bud.mbgt } } } s.w.savePc = .ok s1 →
        ∃ t, exec .forcedFullSave s = .next t ∧ t.w.place = .saved s.w.die (s1.die s1.w.die).orders ∧ t.w.pc = s.w.savePc ∧
          t.w.active = false ∧ t.w.wait = none ∧ t.w.s = s1.w.s ∧ t.w.bud.remT = s1.w.bud.remT) ∧
    (s.w.trp.inh = true → s.w.departing = false → s.w.doubleCause = none → s.w.atBoundary = true → s.w.anyStopped = false →
      s.w.bud.preempt = true ∨ s.w.bud.exhaust ≠ none ∨ s.w.bud.graceHit = true →
      ∃ t, exec .handlerDeferLimit s = .next t ∧ SameBytes s t ∧ t.w.leaving = true ∧ t.w.savePc = interruptedAt s.w ∧ t.w.bud = s.w.bud ∧
        t.w.trp = s.w.trp ∧
        t.w.recCause = some (if s.w.bud.preempt then 0x22 else match s.w.bud.exhaust with | some c => c | none => s.w.bud.xcause))

/-- R206 to R208, R102, R203, R204, R71, R139, R196, R197: an active wave that waits makes room for the ready wave that comes
first; a ready wave takes a free slot, or displaces the weakest active wave when it is urgent, of a higher class or starving;
the dispatcher places the only queued team on the fitting cluster with the fewest waves, its members as their first placement
makes them; a quad accepts placements once it is ready. What the rules leave open in it is the model's choice or reading: log
entries 24, 25, 55 and 61. -/
def Obligations.SchedulerEvents : Prop :=
  (∀ s : State, OnDuty s → (s.waves.map Wave.id).Nodup →
    (∀ p, NextIn s p → s.w.active = true → longDep s = true ∨ otherStall s = true →
      ∃ t, exec .longDependence s = .next t ∧
        ActiveSet s t (fun w => if w.id = s.w.id then false else if w.id = p.id then true else w.active)
          (fun w => if w.id = s.w.id then !longDep s else if w.id = p.id then false else w.stallLong)) ∧
    (NextIn s s.w → (activeWaves s).length < 8 →
      ∃ t, exec .activeSetDisplace s = .next t ∧
        ActiveSet s t (fun w => if w.id = s.w.id then true else w.active) (fun w => if w.id = s.w.id then false else w.stallLong)) ∧
    (∀ d, Weakest s d → 8 ≤ (activeWaves s).length →
      let displaces (i : Instr) : Prop := ∃ t, exec i s = .next t ∧
        ActiveSet s t (fun w => if w.id = s.w.id then true else if w.id = d.id then false else w.active)
          (fun w => if w.id = s.w.id then false else w.stallLong)
      (NextIn s s.w → s.w.urgent = true ∨ d.hdr.cls < s.w.hdr.cls → displaces .activeSetDisplace) ∧
      (isReady s = true → displaces .antiStarvation)) ∧
    (∀ l : BitVec 5, s.w.active = true →
      (16 ≤ l.toNat → exec (.laneStarvation l) s = .next { s with agenda := { wave := s.w.id, act := .control } :: s.agenda }) ∧
      (l.toNat < 16 → s.w.nextVp l.toNat ≠ none → laneTaken s l.toNat = false →
        exec (.laneStarvation l) s = .next { s with agenda := { wave := s.w.id, act := .lane l.toNat } :: s.agenda }))) ∧
  (∀ (d : BitVec 4) (c : BitVec 6) (q : BitVec 2) (s : State), s.hasCluster d.toNat c.toNat = true → Canonical s →
    (s.cluster d.toNat c.toNat).qpend.getLsbD q.toNat = true →
    ∃ t, exec (.quadPowerUpReady d c q) s = .next t ∧ t = { s with clusters := t.clusters } ∧
      (t.cluster d.toNat c.toNat = { s.cluster d.toNat c.toNat with qpend := (t.cluster d.toNat c.toNat).qpend }) ∧
      (∀ j, j < 4 → (t.cluster d.toNat c.toNat).qpend.getLsbD j =
        ((s.cluster d.toNat c.toNat).qpend.getLsbD j && decide (j ≠ q.toNat))) ∧
      ∀ e k, clKey e k ≠ clKey d.toNat c.toNat → t.cluster e k = s.cluster e k) ∧
  (∀ (d : BitVec 4) (s : State) (l : Launch) (cl qt base : Nat),
    let die := d.toNat
    let h := l.hdr
    let fits (k : Nat) : Prop := k < (s.die die).encl ∧ teamFits s die h k = true
    die < s.ndie → s.running die = true → Canonical s → (∀ w ∈ s.waves, w.isSaved = true → w.die ≠ die) →
    (s.die die).tasks = [l] → h.cls < 4 → fits cl →
    (∀ k, fits k → k ≠ cl → (s.residents die cl).length < (s.residents die k).length ∨
      ((s.residents die cl).length = (s.residents die k).length ∧ cl < k)) →
    firstQuota s die cl h = some qt → laneGroup s die cl (2 ^ h.log2l) = some base →
    ∃ t, exec (.dispatch d) s = .next t ∧ SameBytes s t ∧ t.w = s.w ∧
      t.others = s.others ++ (List.range h.size).map (fun m =>
        newWave l l.next m (s.nextWave + m) s.nextTeam die cl base qt ((s.die die).stamps + m)) ∧
      (t.die die).tasks = (if l.next + 1 < h.tcount then [{ l with next := l.next + 1 }] else []) ∧
      (t.die die).stamps = (s.die die).stamps + h.size ∧
      (let region := h.size * 0x420000 + (h.spkib + 63) / 64 * 0x10000
       let start : U64 := BitVec.ofNat 64 (h.save + l.next * region)
       t.team s.nextTeam = { die := die, cl := some cl, size := h.size, kib := h.spkib, base := start, asid := l.asid, sup := l.sup, left := h.size, placed := true }) ∧
      (t.cluster die cl).l1 = [] ∧ t.nextTeam = s.nextTeam + 1 ∧ t.nextWave = s.nextWave + h.size)

/-! ### Events of memory -/

/-- R157, R158, R170, R326: a request of a wave that is free to go is performed at its home: the bytes of its target, and no
others, take the stored value or the result of the bank operation, the old value is on its way back, and a copy of the sector
in the wave's own L1 follows, or all of L1 goes with an acquire; a request to a network window changes nothing in the package.
R161, R164 to R167, R153, R177 to R180, R191, R390, R450, R454: a page walk that succeeds is kept in the TLB; an instruction
word that arrives is kept in the instruction cache; a sector leaves L1; a TLBINV, a fence and a WAITADDR that wait complete
once what they wait for is over; a limited token bucket gains a free number of tokens up to its depth. What the rules leave
open in it is the model's choice or reading: log entries 7, 10, 17, 24, 31, 59 and 65. -/
def Obligations.MemoryEvents : Prop :=
  (∀ (k : BitVec 13) (s : State) (r : Req), s.pkg.service = .running → s.w.isSaved = false → s.w.reqs[k.toNat]? = some r →
     reqFree s k.toNat = true → requestHeld s s.w.die r.tgt = false → Canonical s → 0 < r.size →
     let sound : Prop := r.op.isBank = true → s.poisonedAt r.tgt = false
     (r.op.isBank = true → s.poisonedAt r.tgt = true → s.w.isGone = false →
       exec (.homeBankAccess k) s = .next { s with w := { s.w with
         reqs := s.w.reqs.eraseIdx k.toNat, traps := s.w.traps ++ [{ src := 3, cause := 0x0F, val := r.errorAddr }] } }) ∧
     (∀ pa, r.tgt = .pkg pa → pa % 32 + r.size ≤ 32 → sound →
       let old := Memory.readN s.mem pa r.size
       ∃ t, exec (.homeBankAccess k) s = .next t ∧ Answered s t k.toNat r (BitVec.ofNat 64 old) ∧ t.teams = s.teams ∧ t.others = s.others ∧
         Memory.readN t.mem pa r.size = performed r.size old r.op ∧
         (∀ a, a < pa ∨ pa + r.size ≤ a → Memory.read t.mem a = Memory.read s.mem a) ∧
         t.myCluster = { s.myCluster with l1 := t.myCluster.l1 } ∧
         (r.drop = true → t.myCluster.l1 = []) ∧
         (r.drop = false → ∀ j,
           (lkGet s.myCluster.l1 j = none → lkGet t.myCluster.l1 j = none) ∧
           ∀ x, lkGet s.myCluster.l1 j = some x → ∃ y, lkGet t.myCluster.l1 j = some y ∧ ∀ b, b < 32 → y.toNat / 256 ^ b % 256 =
             if pa ≤ 32 * j + b ∧ 32 * j + b < pa + r.size then (Memory.read t.mem (32 * j + b)).toNat else x.toNat / 256 ^ b % 256) ∧
         ∀ d c, clKey d c ≠ clKey s.w.die s.w.cl → t.cluster d c = s.cluster d c) ∧
     (∀ off, r.tgt = .sp off → SpHere s → r.drop = false → sound →
       let old := Memory.readN s.myTeam.sp off r.size
       ∃ t, exec (.homeBankAccess k) s = .next t ∧ Answered s t k.toNat r (BitVec.ofNat 64 old) ∧ SameBytes s t ∧ t.clusters = s.clusters ∧
         WakesOthers s t ∧ Memory.readN t.myTeam.sp off r.size = performed r.size old r.op ∧
         (∀ a, a < off ∨ off + r.size ≤ a → Memory.read t.myTeam.sp a = Memory.read s.myTeam.sp a) ∧
         ∀ j, j ≠ s.w.team → t.team j = s.team j) ∧
     (∀ w off, r.tgt = .win w off → r.drop = false →
       ∃ t v, exec (.homeBankAccess k) s = .next t ∧ Answered s t k.toNat r v ∧ SameBytes s t ∧ t.teams = s.teams ∧
         t.clusters = s.clusters ∧ t.others = s.others)) ∧
  (∀ (va : BitVec 60) (s : State), OnDuty s → Canonical s → LinksUp s →
    let c := s.myCluster
    let only (t : State) : Prop := t = { s with clusters := t.clusters } ∧ ∀ d k, clKey d k ≠ clKey s.w.die s.w.cl → t.cluster d k = s.cluster d k
    let words (k : Nat) (l m : List (Nat × BitVec 32)) (cap : Nat) : Prop :=
      (∀ j, j < 8 → lkGet m (32 * k + 4 * j) = some (BitVec.ofNat 32 (Memory.readN s.mem (32 * k + 4 * j) 4))) ∧
      (∀ e ∈ m, e.1 / 32 = k ∨ e ∈ l) ∧ (l.length + 8 ≤ cap → ∀ q, q / 32 ≠ k → lkGet m q = lkGet l q)
    (∀ m, m ∈ c.openMisses → m.asid = s.w.asid → m.region = va.toNat / 2 ^ 19 →
      (∀ x ∈ c.openMisses, x.asid = m.asid → x.region = m.region → x = m) →
      ((dieWalks s s.w.die).filter (fun x => decide (x.seq < m.seq))).length < 64 →
      ∃ t, exec (.pageWalkComplete va) s = .next t ∧ only t ∧
        (let d := t.myCluster
         let ended (w : WalkEnd) : Prop := d.misses = (c.misses.map (fun x => if x = m then { x with done := some w } else x)).filter
           (fun x => x.done.isNone || !x.waiters.isEmpty)
         d = { c with tlb := d.tlb, walker := d.walker, misses := d.misses } ∧
         (∀ x ∈ d.walker, x ∈ c.walker ∨
           ∃ e ∈ walkTrace s s.w.asid va.toNat, x = ⟨s.w.asid, e.1, walkPrefix e.1 va.toNat, BitVec.ofNat 64 e.2.2⟩) ∧
         (∀ e b, walk s s.w.asid va.toNat = .ok (e, b) → ended (.leaf e b) ∧
           d.tlb.getLast? = some ⟨s.w.asid, va.toNat / 2 ^ b, b, BitVec.ofNat 64 e⟩ ∧ (∀ x ∈ d.tlb.dropLast, x ∈ c.tlb) ∧
           (c.tlb.length ≤ 4096 → d.tlb.length ≤ 4096)) ∧
         ∀ f, walk s s.w.asid va.toNat = .error f → ended (.fault f) ∧ d.tlb = c.tlb)) ∧
    (∀ x, x ∈ c.fmiss → x.wave = s.w.id → x.sector = va.toNat / 32 →
      (∀ y ∈ c.fmiss, y.wave = s.w.id → y.sector = va.toNat / 32 → y = x) →
      ∃ t, exec (.instructionFetchReply va) s = .next t ∧ only t ∧
        (let d := t.myCluster
         d = { c with icache := d.icache, tcache := d.tcache, fmiss := d.fmiss } ∧
         d.fmiss = c.fmiss.filter (fun y => !(y.lane == x.lane && y.sector == x.sector)) ∧
         (s.poisoned (32 * x.sector) = true → d.icache = c.icache ∧ d.tcache = c.tcache) ∧
         (s.poisoned (32 * x.sector) = false →
           (x.lane = none → words x.sector c.icache d.icache 16384 ∧ d.tcache = c.tcache) ∧
           ∀ j, x.lane = some j → d.icache = c.icache ∧ (∀ i, i ≠ j → lkGet d.tcache i = lkGet c.tcache i) ∧
             ∃ l, lkGet d.tcache j = some l ∧ words x.sector ((lkGet c.tcache j).getD []) l 2048)))) ∧
  (∀ (d : BitVec 4) (c : BitVec 6) (s : State), s.hasCluster d.toNat c.toNat = true → Canonical s →
    let x := s.cluster d.toNat c.toNat
    let becomes (i : Instr) (p : Cluster → Prop) : Prop := ∃ t, exec i s = .next t ∧ t = { s with clusters := t.clusters } ∧
      p (t.cluster d.toNat c.toNat) ∧ ∀ e k, clKey e k ≠ clKey d.toNat c.toNat → t.cluster e k = s.cluster e k
    (∀ k : BitVec 15, k.toNat < x.l1.length → becomes (.l1SectorExpiry d c k) (fun y => y = { x with l1 := x.l1.eraseIdx k.toNat })) ∧
    (∀ (asid : BitVec 16) (cls : BitVec 2),
      let rate := (x.rate.entry asid).at cls.toNat
      let depth := (x.depth.entry asid).at cls.toNat
      let key := asid.toNat * 4 + cls.toNat
      cls.toNat < 3 → rate ≠ 0 → rate ≠ 0xFFFF → spWf (0 : Int) 0 x.tokens = true →
      ∃ n : Nat, becomes (.tokenBucketFill d c asid cls) (fun y => y = { x with tokens := y.tokens } ∧
        spGet 0 y.tokens key = (let v := spGet 0 x.tokens key + n
          if depth = 0xFFFF then v else min v depth.toNat) ∧
        ∀ j, j ≠ key → spGet 0 y.tokens j = spGet 0 x.tokens j))) ∧
  (∀ (d a b : BitVec 5) (sc : BitVec 3) (k : BitVec 2) (f u : BitVec 5) (s : State), OnDuty s → Canonical s → s.w.cl < 64 →
    let goes (i : Instr) (p : State → Prop) : Prop := ∃ t, exec i s = .next t ∧ t.w.pc = s.w.pc + 4 ∧ t.w.wait = none ∧ t.w.bud = s.w.bud ∧
      SameBytes s t ∧ p t
    let waits (i : Instr) (ph : Nat) : Prop := s.w.wait = some (.issued i ph)
    (∀ since, s.w.reqs = [] → s.w.trp.inh = true ∨ (QueueEmpty s ∧ s.w.runs = []) →
      (∀ c ∈ s.clusters, ∀ m ∈ c.2.misses, m.done.isSome = true ∨ since ≤ m.seq) →
      let drops (p : TlbEntry → Bool) (q : BitVec 16 → Bool) : Prop := goes .tlbinvComplete (fun t => t.w.s = s.w.s ∧
        (∀ e c, t.cluster e c = { s.cluster e c with
          tlb := (s.cluster e c).tlb.filter (fun x => !p x), walker := (s.cluster e c).walker.filter (fun x => !q x.asid)
          misses := (t.cluster e c).misses }) ∧
        ∀ e c, ∀ m ∈ (t.cluster e c).misses, m ∈ (s.cluster e c).misses ∧
          ∀ l k, m.done = some (.leaf l k) → p ⟨m.asid, m.region * 2 ^ 19 / 2 ^ k, k, BitVec.ofNat 64 l⟩ = false)
      let own (x : BitVec 16) : Bool := x == (s.w.gs b).setWidth 16
      (waits (.tlbinvPage a b) since → drops (fun x => decide (x.vpage = (s.w.gs a).toNat % 2 ^ 60 / 2 ^ x.bits) &&
        (own x.asid || decide (x.leaf.toNat / 2 ^ 6 % 2 = 1))) own) ∧
      (waits (.tlbinvAsid b) since → drops (fun x => own x.asid && decide (x.leaf.toNat / 2 ^ 6 % 2 = 0)) own) ∧
      (waits .tlbinvAll since → drops (fun _ => true) (fun _ => true))) ∧
    (NothingOpen s →
      (let fenced (t : State) : Prop := (k = 1 → 2 ≤ sc.toNat → t.myCluster = { s.myCluster with l1 := [] }) ∧
         (k = 3 → t.myCluster.icache = [] ∧ t.myCluster.tcache = []) ∧ (k ≠ 1 → k ≠ 3 → t.clusters = s.clusters)
       let xfenced (t : State) : Prop := (2 ≤ sc.toNat → u.getLsbD 0 = true → t.myCluster = { s.myCluster with l1 := [] }) ∧
         (u.getLsbD 0 = false → t.clusters = s.clusters)
       let left (i : Instr) (p : State → Prop) : Prop := s.w.fence = some i → ∃ t, exec .fenceComplete s = .next t ∧ t.w.fence = none ∧
         t.w.pc = s.w.pc ∧ t.w.wait = s.w.wait ∧ t.w.s = s.w.s ∧ t.w.bud = s.w.bud ∧ SameBytes s t ∧ p t
       (s.w.fence = none →
         (waits (.fence sc k) 1 → goes .fenceComplete (fun t => t.w.s = s.w.s ∧ fenced t)) ∧
         (waits (.xfence sc f u) 1 → goes .fenceComplete (fun t => t.w.s = s.w.s ∧ xfenced t))) ∧
       left (.fence sc k) fenced ∧ left (.xfence sc f u) xfenced) ∧
      (∀ pa, waits (.waitaddr d a b) 0 → LinksUp s → NoWalk s 0 → Translated s [(s.w.gs a).toNat] →
        let va := s.w.gs a
        let v : U64 := BitVec.ofNat 64 (Memory.readN s.mem pa 8)
        va.toNat < 2 ^ 60 - 2 ^ 40 → va.toNat % 8 = 0 → translate s s.w.asid s.w.sup Acc.load va.toNat = .ok (.pkg pa) → s.poisoned pa = false →
        (v = s.w.gs b → exec .waitaddrPoll s = .next s) ∧
        (v ≠ s.w.gs b → s.w.doubleCause = none → ∀ i, i = .waitaddrPoll ∨ i = .waitaddrComplete →
          goes i (fun t => Writes s t d v ∧ t.myCluster = { s.myCluster with l1 := [] })))))

/-! ### Errors, links and power -/

/-- R242, R243, R253, R254, R240, R262, R283, R284: a corrected error is counted and recorded once in its unit's window; an
uncorrectable one marks the element, doubleword, sector or row that it strikes and is recorded, and in the wave's own state it
is a double trap; a link that times out is failed and reported; an interval's grants stay within the ceiling, and within the
sustained current after ten intervals above it. What the rules leave open in it is the model's choice or reading: log entries
26, 34, 40 and 47. -/
def Obligations.ErrorsLinksAndPower : Prop :=
  (∀ (d : BitVec 4) (c : BitVec 6) (u : BitVec 3) (hbm : BitVec 1) (n : U64) (s : State), s.hasCluster d.toNat c.toNat = true →
    s.pkg.service = .running → 1 ≤ u.toNat → u.toNat ≤ 6 → Canonical s → spWf (0 : Nat) 0 s.pkg.wear.counts = true →
    let key := (d.toNat * 64 + c.toNat) * 8 + u.toNat
    let counter := correctedKey s d.toNat c.toNat u.toNat hbm n.toNat
    let idx := if u = 1 then n.toNat / 2 ^ 16 % 2 ^ 14 else if u = 5 then n.toNat % 64 else 0
    ∃ t, exec (.eccCorrected d c ⟨u, hbm⟩ n) s = .next t ∧
      t = { s with mem := t.mem, poison := t.poison
                   pkg := { s.pkg with wear := { s.pkg.wear with counts := t.pkg.wear.counts }, windowEcc := t.pkg.windowEcc } } ∧
      (∀ j, wearAt t j = wearAt s j + (if j = counter then 1 else 0)) ∧
      (key ∈ s.pkg.windowEcc → t.mem = s.mem ∧ t.poison = s.poison ∧ t.pkg.windowEcc = s.pkg.windowEcc) ∧
      (key ∉ s.pkg.windowEcc → t.pkg.windowEcc = key :: s.pkg.windowEcc ∧ ∃ val : Nat,
        (u = 1 → val = n.toNat % 64 + idx * 2 ^ 16) ∧ (u = 2 → val = (2 ^ 60 - 2 ^ 40 + n.toNat) % 2 ^ 64) ∧
        (u = 3 ∨ u = 4 ∨ u = 6 → val = n.toNat) ∧
        RecordWritten s t s.poison d.toNat 0 (recordFields 0x0F 0 0 d.toNat c.toNat true u.toNat idx) 0 val)) ∧
  (∀ (d : BitVec 4) (c : BitVec 6) (u : BitVec 3) (s : State), s.hasCluster d.toNat c.toNat = true →
    let key := (d.toNat * 64 + c.toNat) * 8 + u.toNat
    key ∈ s.pkg.windowEcc → exec (.errorRecordWindow d c u) s =
      .next { s with pkg := { s.pkg with windowEcc := s.pkg.windowEcc.filter (fun j => j != key) } }) ∧
  (∀ (hbm : BitVec 1) (n : U64) (s : State), OnDuty s → Canonical s → spWf ({} : VReg) 0 s.w.vregs = true →
    spWf (0 : Nat) 0 s.pkg.wear.counts = true →
    let v := n.toNat % 64
    let i := n.toNat / 2 ^ 16 % 2 ^ 14
    let row := n.toNat % 64
    let tile := n.toNat / 2 ^ 16 % 8
    let strikes (u : BitVec 3) (idx : Nat) (poison : List Nat) (p : State → Nat → Prop) : Prop :=
      ∃ t val, exec (.eccUncorrectable ⟨u, hbm⟩ n) s = .next t ∧ t.w.pc = s.w.pc ∧ t.w.s = s.w.s ∧ t.w.traps = s.w.traps ∧
        t.others = s.others ∧ p t val ∧
        RecordWritten s t poison s.w.die s.w.wid.toNat (recordFields 0x0F 0 s.w.asid.toNat s.w.die s.w.cl false u.toNat idx) s.w.pc.toNat val
    ((s.w.reg v).st = .live → i < (s.w.reg v).tag → strikes 1 i s.poison (fun t val =>
      val = v + i * 2 ^ 16 ∧ t.w.reg v = { s.w.reg v with bad := i :: (s.w.reg v).bad.filter (fun j => j != i) } ∧
      (∀ r, r ≠ v → t.w.reg r = s.w.reg r) ∧
      let k := wearReg s.w.die (s.siteOf s.w.die s.w.cl) (s.physLane s.w.die s.w.cl (s.w.base + s.w.laneOf i))
      wearAt t k = wearAt s k + 1)) ∧
    (s.myTeam.cl.isSome = true → n.toNat < s.myTeam.bytes → strikes 2 0 s.poison (fun t val =>
      val = (2 ^ 60 - 2 ^ 40 + n.toNat) % 2 ^ 64 ∧
      t.myTeam = { s.myTeam with bad := n.toNat / 8 :: s.myTeam.bad.filter (fun j => j != n.toNat / 8) })) ∧
    strikes 3 0 s.poison (fun t val => val = n.toNat ∧ lkGet t.myCluster.l1 n.toNat = none ∧
      ∀ j, j ≠ n.toNat → lkGet t.myCluster.l1 j = lkGet s.myCluster.l1 j) ∧
    (n.toNat < s.installed → strikes 4 0 (n.toNat / 32 :: s.poison) (fun t val => val = n.toNat ∧ t.w = s.w)) ∧
    (s.myCluster.owner = some s.w.id → tile < 4 → strikes 5 row s.poison (fun t _ =>
      t.w.badRows = (tile, row) :: s.w.badRows.filter (fun e => e != (tile, row)) ∧ t.w.tiles = s.w.tiles)) ∧
    (s.w.mat ≠ [] → ∃ t, exec (.eccUncorrectable ⟨6, hbm⟩ n) s = .next t ∧ t.w.doubleCause = some (0x0F, n) ∧ t.w.wait = none ∧ t.w.s = s.w.s ∧
      RecordWritten s t s.poison s.w.die s.w.wid.toNat (recordFields 0x0F 0 s.w.asid.toNat s.w.die s.w.cl false 6 0) s.w.pc.toNat n.toNat)) ∧
  (∀ (l : BitVec 6) (s : State), l.toNat < s.links → s.trained l.toNat = true → l.toNat ∉ s.pkg.failedLinks →
    exec (.linkErrorRetry l) s = .next s ∧
    (s.pkg.service = .running → (∀ d ∈ linkDies s l.toNat, (s.die d).halted = false) → exec (.linkTimeout l) s = .next
      { s with pkg := { s.pkg with failedLinks := l.toNat :: s.pkg.failedLinks, mgmt := s.pkg.mgmt ++ ["LINKFAIL"] } })) ∧
  (∀ s : State, s.pkg.service = .running →
    let top := if s.pkg.code = .p8 then 10000 else 20000
    let cap := if s.pkg.cap = 0 then top else min top s.pkg.cap.toNat
    let steady := if s.pkg.code = .p8 then 8200 else 16400
    let p := s.pkg.power
    let limit := if p.rest = 0 ∧ p.above < 10 then cap else min cap steady
    ∃ q : Power, exec .powerInterval s = .next { s with pkg := { s.pkg with power := q } } ∧
      let total := 150 * s.ndie + (q.grants.map Prod.snd).sum
      q.grants.map Prod.fst = List.range s.ndie ∧ q.interval = p.interval + 1 ∧ q.limits = p.limits ∧ q.recent = matrixClusters s ∧
      q.started = [] ∧ total ≤ max limit (150 * s.ndie) ∧
      (steady < total → q.above = p.above + 1 ∧ q.rest = p.rest) ∧
      (total ≤ steady → p.above ≠ 0 → q.above = 0 ∧ q.rest = 89) ∧
      (total ≤ steady → p.above = 0 → q.above = 0 ∧ q.rest = p.rest - 1)) ∧
  (∀ (d : BitVec 4) (s : State) (g : Nat), d.toNat < s.ndie → lkGet s.pkg.power.grants d.toNat = some g →
    exec (.powerGrant d) s = .next { s with pkg := { s.pkg with power := { s.pkg.power with
      grants := lkDel s.pkg.power.grants d.toNat, limits := lkSet s.pkg.power.limits d.toNat g } } })

/-! ### Boot, flash and wear -/

/-- R262 to R264, R266, R268 to R272, R274: a reset loses every wave, queue and register and starts exploration where the
image is good, or stops with BOOTFAIL; each die answers its first flit with a report and forwards it; names drawn twice are
drawn anew, a bad topology holds the package out of service, and otherwise the almanac is written; after exploration boot
wipes memory, copies the image and places supervisor waves; the wear record is kept in flash as last written. What the rules
leave open in it is the model's choice or reading: log entries 3, 8, 9, 35, 36, 37, 38, 40, 43
and 48. -/
def Obligations.BootAndFlash : Prop :=
  (∀ s : State, s.pkg.service ≠ .explored →
    let digest' (m : List Byte) : List Byte := (List.range 64).map (Config.shake256 m)
    let good : Prop := ∃ i, s.pkg.flash = some i ∧ i.whole = true ∧ digest' i.key = (List.range 64).map Config.fuseDigest ∧
      Config.verifies i.key (digest' (i.header ++ i.body)) i.sig = true ∧ s.pkg.minVersion.toNat ≤ i.version.toNat
    let n := (s.pkg.resets + 1).toNat
    let read : WearRecord := if Config.recordFails n = true then {} else s.pkg.wear
    ∃ t, exec .resetP s = .next t ∧
      t = { mem := s.mem, poison := s.poison, agenda := s.agenda, free := s.free
            pkg := { code := s.pkg.code, service := t.pkg.service, lifecycle := s.pkg.lifecycle, keyNo := s.pkg.keyNo
                     minVersion := s.pkg.minVersion, version := t.pkg.version, flash := s.pkg.flash, endorsed := s.pkg.endorsed
                     resets := s.pkg.resets + 1, downLinks := t.pkg.downLinks, failedLinks := t.pkg.failedLinks
                     explore := t.pkg.explore, wear := t.pkg.wear
                     wearFlash := s.pkg.wear, mgmt := t.pkg.mgmt, hostStatus := s.pkg.hostStatus } } ∧
      (good → t.pkg.service = .exploring ∧ t.pkg.mgmt = s.pkg.mgmt ∧ (∀ i, s.pkg.flash = some i → t.pkg.version = i.version) ∧
        t.pkg.failedLinks = [] ∧ (∀ l, l ∈ t.pkg.downLinks ↔ l < s.links ∧ (l ∈ s.pkg.failedLinks ∨ linkShort t l = true)) ∧
        t.pkg.wear.counts = read.counts ∧
        (∀ k, k ∈ t.pkg.wear.retired ↔ k ∈ read.retired ∨ (k ∈ ucieKeys s ∧ Config.laneFails n k = true)) ∧
        (∀ k, k ∈ t.pkg.wear.tests ↔ k ∈ read.tests ∨ (k ∈ ucieKeys s ∧ Config.laneFails n k = true)) ∧
        t.pkg.explore = { on := true, draw := s.pkg.explore.draw + 1, visited := [t.nring]
                          flits := (portsOf t t.nring).map (fun e => { dest := e.2, path := [e.1] }) }) ∧
      (¬ good → t.pkg.service = .bootFail ∧ t.pkg.mgmt = s.pkg.mgmt ++ ["BOOTFAIL"] ∧ t.pkg.explore.on = false ∧
        t.pkg.wear = s.pkg.wear ∧ t.pkg.downLinks = s.pkg.downLinks ∧ t.pkg.failedLinks = s.pkg.failedLinks)) ∧
  (∀ (k : BitVec 8) (s : State), s.pkg.explore.on = true →
    let x := s.pkg.explore
    (∀ f, x.flits[k.toNat]? = some f →
      let rest := x.flits.eraseIdx k.toNat
      let back := f.path.getLast?
      exec (.explorationFlit k) s = .next { s with pkg := { s.pkg with explore :=
        if f.dest ∈ x.visited then { x with flits := rest }
        else { x with
               visited := x.visited ++ [f.dest]
               sent := x.sent ++ [{ node := f.dest, kind := if s.nring ≤ f.dest then 2 else f.dest % 2, name := nameOf s f.dest
                                    near := (portsOf s f.dest).map (fun e => (e.1, nameOf s e.2)) }]
               flits := rest ++ ((portsOf s f.dest).filter (fun e => some e.1 != back)).map (fun e =>
                 { dest := e.2, path := f.path ++ [e.1] }) } } }) ∧
    (∀ r, x.sent[k.toNat]? = some r → exec (.explorationReport k) s =
      .next { s with pkg := { s.pkg with explore := { x with sent := x.sent.eraseIdx k.toNat, got := x.got ++ [r] } } })) ∧
  (∀ s : State, s.pkg.explore.on = true → s.pkg.explore.flits = [] → s.pkg.explore.sent = [] → Memory.wf s.mem = true →
    let names := nameOf s s.nring :: s.pkg.explore.got.map (fun r => r.name)
    (¬ names.Nodup → exec .explorationQuietTimeout s = .next { s with pkg := { s.pkg with explore :=
      { on := true, draw := s.pkg.explore.draw + 1, visited := [s.nring]
        flits := (portsOf s s.nring).map (fun e => { dest := e.2, path := [e.1] }) } } }) ∧
    (names.Nodup → badTopo s = true → exec .explorationQuietTimeout s = .next { s with pkg := { s.pkg with
      service := .heldOut "BADTOPO", explore := { s.pkg.explore with on := false }, mgmt := s.pkg.mgmt ++ ["BADTOPO"] } }) ∧
    (names.Nodup → badTopo s = false → ∃ t, exec .explorationQuietTimeout s = .next t ∧
      t = { s with mem := t.mem, pkg := { s.pkg with service := .explored, explore := { s.pkg.explore with on := false } } } ∧
      (∀ a, a < 0xC0000 ∨ 0xC1000 ≤ a → Memory.read t.mem a = Memory.read s.mem a) ∧
      Memory.readN t.mem 0xC0000 8 = 2 ^ 48 + s.nring * 2 ^ 40 + s.ndie * 2 ^ 32 + s.pkg.resets.toNat ∧
      (∀ p, (Memory.readN t.mem 0xC0008 8).testBit p = (decide (p < s.nring + s.nring / 2) && s.trained p)) ∧
      (∀ p, (Memory.readN t.mem 0xC0010 8).testBit p = (decide (p < 4) && s.trained (s.nring + s.nring / 2 + p))) ∧
      (∀ d, d < s.ndie → (Memory.read t.mem (0xC0020 + d)).toNat = enclOf s d ∧
        (Memory.read t.mem (0xC0030 + d)).toNat = banksRetired s d % 256) ∧
      (∀ x y, x < s.nring → y < s.nring → (Memory.read t.mem (0xC0100 + 32 * x + y)).toNat = (distances s y).getD x 0 % 256) ∧
      (∀ e, e < 8 → Memory.readN t.mem (0xC0800 + 8 * e) 8 = (Config.macAddress e).toNat) ∧
      (∀ o, o < 4096 → (o < 0x18 ∨ (0x20 ≤ o ∧ o < 0x40) ∨ (0x100 ≤ o ∧ o < 0x500) ∨ (0x800 ≤ o ∧ o < 0x840)) ∨
        Memory.read t.mem (0xC0000 + o) = 0))) ∧
  (∀ (s : State) (i : Image), s.pkg.service = .explored → s.w = {} → s.others = [] → s.teams = [] → Memory.wf s.mem = true →
    s.pkg.flash = some i →
    let s1 := selfTest s
    let tested (r : WearRecord) : Prop := r.counts = s.pkg.wear.counts ∧
      (∀ k, k ∈ r.tests ↔ k ∈ s.pkg.wear.tests ∨ (k ∈ testedKeys s ∧ Config.selfTestFails s.pkg.resets.toNat k = true)) ∧
      ∀ k, k ∈ r.retired ↔ k ∈ s.pkg.wear.retired ∨ k ∈ retireKeys s
    let held (m : String) : Prop := ∃ t, exec .resetP s = .next t ∧ tested t.pkg.wear ∧ t = { s with pkg := { s.pkg with
      wear := t.pkg.wear, service := .heldOut m, explore := { s.pkg.explore with on := false }, mgmt := s.pkg.mgmt ++ [m] } }
    let few : Prop := ∃ d, d < s.ndie ∧ enclOf s1 d < 32
    let bad : Prop := ∃ d, d < s.ndie ∧ 8 < banksRetired s1 d
    let worn : Prop := ∃ d, d < s.ndie ∧ Config.stackRepairs d < rowsRetired s1 d
    let pa := i.entry.toNat
    let prepared (t : State) : Prop := t.poison = [] ∧ t.w = {} ∧ tested t.pkg.wear ∧
      (∀ d, d < s.ndie → (t.die d).encl = enclOf s1 d ∧ (∀ c, siteRetired s1 d c = false → c < enclOf s1 d → t.siteOf d c = c) ∧
        ∀ c, c < enclOf s1 d → (t.cluster d c).spare = decide (64 ≤ t.siteOf d c)) ∧
      Memory.readN t.mem 0 8 = (Config.bootTable s.pkg.resets.toNat).toNat * 2 ^ 14 + 1 ∧
      ∀ a, 8 ≤ a → Memory.read t.mem a =
        if 0x100000 ≤ a ∧ a < 0x100000 + i.body.length then i.body.getD (a - 0x100000) 0
        else if 0xC0000 ≤ a ∧ a < 0xC1000 then Memory.read s.mem a else 0
    let up (t : State) (sv : Service) (m : List String) : Prop := t.pkg = { s.pkg with
      wear := t.pkg.wear, bankSites := (List.range s.ndie).flatMap (bankSitesOf s1), service := sv, ethUp := true, pfc := false, mgmt := m }
    (few → held "ENCL") ∧ (¬ few → bad → held "L2") ∧ (¬ few → ¬ bad → worn → held "HBM4") ∧
    (¬ few → ¬ bad → ¬ worn →
      (s.pkg.lifecycle ≠ 2 → ∃ t, exec .resetP s = .next t ∧ prepared t ∧ t.others = [] ∧ up t .running s.pkg.mgmt) ∧
      (s.pkg.lifecycle = 2 → s.installed < pa + 64 → exec .resetP s = .fault (.absentAddress pa)) ∧
      (s.pkg.lifecycle = 2 → pa + 64 ≤ s.installed → ∃ t, exec .resetP s = .next t ∧ prepared t ∧
        let h := hdrOf (Memory.readN t.mem pa 64)
        (h.invalid true = true → t.others = [] ∧ up t .noLaunch (s.pkg.mgmt ++ ["BOOTFAIL"])) ∧
        (h.invalid true = false → up t .running s.pkg.mgmt ∧ (t.others.map Wave.die).Sublist (List.range s.ndie) ∧
          ∀ w ∈ t.others, ∃ id team d c base q st,
            w = newWave { hdr := { h with dw0 := h.dw0 &&& ~~~(BitVec.ofNat 64 (2 ^ 60)) }, arg := 0, depth := 0, limit := h.depth, asid := 0
                          sup := true } 0 0 id team d c base q st)))) ∧
  (∀ (w : BitVec 1) (v : BitVec 32) (pa : U64) (key sig body : List Byte) (s : State), s.pkg.service ≠ .off →
    (body.length ≤ 15 * 2 ^ 20 → key.length = 1952 → sig.length = 3309 → exec (.flashImageWrite w v pa ⟨key, sig, body⟩) s =
      .next { s with pkg := { s.pkg with
        flash := some { whole := w == 1, version := v, entry := pa, key := key, sig := sig, body := body } } }) ∧
    exec .wearRecordWrite s = .next { s with pkg := { s.pkg with wearFlash := s.pkg.wear } }) ∧
  (∀ s : State, exec .powerFailure s = .next
    { mem := s.mem, poison := s.poison, agenda := s.agenda, free := s.free
      pkg := { code := s.pkg.code, service := .off, lifecycle := s.pkg.lifecycle, keyNo := s.pkg.keyNo, minVersion := s.pkg.minVersion
               flash := s.pkg.flash, endorsed := s.pkg.endorsed, resets := s.pkg.resets, downLinks := s.pkg.downLinks
               failedLinks := s.pkg.failedLinks
               explore := { draw := s.pkg.explore.draw }, wear := s.pkg.wearFlash, wearFlash := s.pkg.wearFlash } })

/-! ### The management controller and the debug port -/

/-- R273, R275, R278 to R282: a management command from the host or the mailbox completes with its status and result: BADSTATE
outside OPERATIONAL, BADARG for an argument out of range, BADCMD for a code that is not listed; windows, regions, queue pairs,
the cap, the report of ATTEST, and the lifecycle with its reset. What the rules leave open in it is the model's choice or
reading: log entries 8, 9, 44 and 45. -/
def Obligations.ManagementCommands : Prop :=
  (∀ (h : BitVec 1) (a0 a1 a2 a3 req : U64) (rest : List Command) (s : State),
    let stands (code : U64) : Prop := CommandStands h code a0 a1 a2 a3 req rest s
    let does (i : Instr) (status res : Nat) (f : State → State) : Prop := Commanded i h req rest status res f s
    let unused (n : Nat) : Prop :=
      (∀ w ∈ s.waves, (∀ r ∈ w.reqs, ∀ o, r.tgt ≠ .win n o) ∧ (∀ l ∈ w.openLoads, ∀ o, l.tgt ≠ .win n o) ∧
        ∀ r ∈ w.replies, ∀ o, r.tgt ≠ .win n o) ∧
      ∀ e ∈ s.clusters, ∀ b ∈ e.2.bulk, copyUses s (e.1 / 64) (e.1 % 64) n b = false
    let takes (i : Instr) (code : U64) : Prop :=
      exec i s = .next { s with pkg := { s.pkg with cmds := s.pkg.cmds ++ [taken h code a0 a1 a2 a3 s] } }
    let rows : List (Instr × U64) := [(Instr.setwin h a0 a1 a2 a3, 1), (.clrwin h a0 a1 a2 a3, 2), (.setinb h a0 a1 a2 a3, 3),
      (.clrinb h a0 a1 a2 a3, 4), (.qpconn h a0 a1 a2 a3, 5), (.qpclose h a0 a1 a2 a3, 6), (.attest h a0 a1 a2 a3, 7),
      (.lifecycle h a0 a1 a2 a3, 8), (.setcap h a0 a1 a2 a3, 9), (.provision h a0 a1 a2 a3, 10)]
    (∀ i c, (i, c) ∈ rows → TakesCommands s → s.pkg.cmds ≠ [] → CommandArrives h c a0 a1 a2 a3 s →
      (∀ d ∈ s.pkg.cmds.head?, d.code ≠ c ∨ d.host ≠ (h == 1)) → takes i c) ∧
    (s.pkg.lifecycle = 2 → TakesCommands s → s.pkg.cmds = [] →
      (∀ w ∈ s.waves, ∀ r ∈ w.reqs, ∀ o, a0.toNat < 256 → r.tgt = .win a0.toNat o → CommandArrives h 2 a0 a1 a2 a3 s →
        takes (.clrwin h a0 a1 a2 a3) 2) ∧
      (∀ b ∈ s.pkg.inbound, b.region = a0.toNat → a0.toNat < 64 → CommandArrives h 4 a0 a1 a2 a3 s → takes (.clrinb h a0 a1 a2 a3) 4)) ∧
    let setwinOk : Prop := a0.toNat / 2 ^ 11 % 2 ^ 5 = 0 ∧ a0.toNat < 2 ^ 43 ∧ a3.toNat < 2 ^ 32 ∧
      (lkGet s.pkg.qps (a0.toNat / 2 ^ 16 % 2 ^ 24)).isSome = true
    let setinbOk : Prop := a0.toNat / 2 ^ 6 % 4 = 0 ∧ a0.toNat < 2 ^ 11 ∧ a1.toNat % 4096 = 0 ∧ a2.toNat % 4096 = 0 ∧ a2 ≠ 0 ∧
      a1.toNat + a2.toNat ≤ s.installed
    (s.pkg.lifecycle ≠ 2 → ∀ i c, (i, c) ∈ rows → c ∉ [(7 : U64), 8, 10] → stands c → does i 3 0 id) ∧
    (s.pkg.lifecycle = 2 →
      (stands 1 → ¬ setwinOk → does (.setwin h a0 a1 a2 a3) 2 0 id) ∧
      (stands 1 → setwinOk → unused (a0.toNat % 256) →
        let d : Window := ⟨true, BitVec.ofNat 3 (a0.toNat / 2 ^ 8), BitVec.ofNat 24 (a0.toNat / 2 ^ 16), a1, a2, a3.setWidth 32,
          BitVec.ofNat 3 (a0.toNat / 2 ^ 40)⟩
        does (.setwin h a0 a1 a2 a3) 0 0
          (fun x => { x with pkg := { x.pkg with windows := spSet ({} : Window) x.pkg.windows (a0.toNat % 256) d } })) ∧
      (stands 2 → 256 ≤ a0.toNat → does (.clrwin h a0 a1 a2 a3) 2 0 id) ∧
      (stands 2 → a0.toNat < 256 → unused a0.toNat → does (.clrwin h a0 a1 a2 a3) 0 0
        (fun x => { x with pkg := { x.pkg with windows := spSet ({} : Window) x.pkg.windows a0.toNat {} } })) ∧
      (stands 3 → ¬ setinbOk → does (.setinb h a0 a1 a2 a3) 2 0 id) ∧
      (stands 3 → setinbOk → ∃ key : BitVec 32,
        let r : Region := ⟨true, a1, a2, BitVec.ofNat 3 (a0.toNat / 2 ^ 8), key⟩
        does (.setinb h a0 a1 a2 a3) 0 key.toNat
          (fun x => { x with pkg := { x.pkg with regions := spSet ({} : Region) x.pkg.regions (a0.toNat % 64) r } })) ∧
      (stands 4 → 64 ≤ a0.toNat → does (.clrinb h a0 a1 a2 a3) 2 0 id) ∧
      (stands 4 → a0.toNat < 64 → (∀ b ∈ s.pkg.inbound, b.region ≠ a0.toNat) → does (.clrinb h a0 a1 a2 a3) 0 0
        (fun x => { x with pkg := { x.pkg with regions := spSet ({} : Region) x.pkg.regions a0.toNat {} } })) ∧
      (stands 5 → (8 ≤ a0.toNat ∨ 2 ^ 24 ≤ a3.toNat) → does (.qpconn h a0 a1 a2 a3) 2 0 id) ∧
      (stands 5 → a0.toNat < 8 → a3.toNat < 2 ^ 24 →
        let free (k : Nat) : Prop := k / 4096 = a0.toNat / 4 ∧ lkGet s.pkg.qps k = none
        ((∀ k, ¬ free k) → does (.qpconn h a0 a1 a2 a3) 4 0 id) ∧
        let q : Qp := ⟨a0.setWidth 3, a1, a2, a3.setWidth 24, 800⟩
        ((∃ k, free k) → does (.qpconnTimeout h a0 a1 a2 a3) 5 0 id ∧
          ∃ k, free k ∧ does (.qpconn h a0 a1 a2 a3) 0 k (fun x => { x with pkg := { x.pkg with qps := lkSet x.pkg.qps k q } }))) ∧
      (stands 6 →
        let named : Prop := ∃ e ∈ s.pkg.windows, e.2.valid = true ∧ e.2.qp.toNat = a0.toNat
        (lkGet s.pkg.qps a0.toNat = none → does (.qpclose h a0 a1 a2 a3) 2 0 id) ∧
        ((lkGet s.pkg.qps a0.toNat).isSome = true → named → does (.qpclose h a0 a1 a2 a3) 3 0 id) ∧
        ((lkGet s.pkg.qps a0.toNat).isSome = true → ¬ named → does (.qpclose h a0 a1 a2 a3) 0 0
          (fun x => { x with pkg := { x.pkg with qps := lkDel x.pkg.qps a0.toNat } }))) ∧
      (stands 9 → 2 ^ 16 ≤ a0.toNat → does (.setcap h a0 a1 a2 a3) 2 0 id) ∧
      (stands 9 → a0.toNat < 2 ^ 16 → does (.setcap h a0 a1 a2 a3) 0 0
        (fun x => { x with pkg := { x.pkg with cap := a0.setWidth 16 } }))) ∧
    (stands 7 →
      let out := a1.toNat
      let bad : Prop := out % 2 ^ 13 ≠ 0 ∨ s.installed < a0.toNat + 32 ∨ s.installed < out + 5517
      (bad → does (.attest h a0 a1 a2 a3) 2 0 id) ∧
      (¬ bad → s.pkg.keyNo = none → does (.attest h a0 a1 a2 a3) 6 0 id) ∧
      (¬ bad → out ≠ 0xC0000 → ∀ k, s.pkg.keyNo = some k → ∃ t, exec (.attest h a0 a1 a2 a3) s = .next t ∧
        t = { s with mem := t.mem, poison := t.poison, pkg := { s.pkg with hostStatus := t.pkg.hostStatus, cmds := rest } } ∧
        (let at8 (o : Nat) : Nat := Memory.readN t.mem (out + o) 8
         let byte (o : Nat) : Byte := Memory.read t.mem (out + o)
         (∀ j, j < 32 → byte j = Memory.read s.mem (a0.toNat + j)) ∧
         at8 0x20 = s.pkg.lifecycle.toNat * 2 ^ 56 + s.pkg.version.toNat ∧ at8 0x28 = s.pkg.resets.toNat ∧
         (∀ j, j < 64 → byte (0x30 + j) = Config.shake256 (imageBytes s) j ∧
           byte (0x70 + j) = Config.shake256 ((List.range 4096).map (fun o => Memory.read s.mem (0xC0000 + o))) j ∧
           byte (0xB0 + j) = Config.shake256 (wearBytes s.pkg.wearFlash) j) ∧
         (∀ j, j < 16 → byte (0xF0 + j) = Config.deviceId j) ∧ (∀ j, j < 1952 → byte (0x100 + j) = Config.publicKey k j) ∧
         ∀ j, j < 3309 → byte (0x8A0 + j) =
           Config.signature k ((List.range 64).map (Config.shake256 ((List.range 0x8A0).map byte))) j) ∧
        (∀ a, a < out ∨ out + 5517 ≤ a → (a < 0xC1080 ∨ 0xC1098 ≤ a) → Memory.read t.mem a = Memory.read s.mem a) ∧
        Told h req s t t.mem 0 0)) ∧
    (let resets (i : Instr) (life : BitVec 2) (key : Option Nat) (n : BitVec 32) : Prop :=
      ∃ t, exec i s = .next t ∧ t.w = {} ∧ t.others = [] ∧ t.clusters = [] ∧ t.dies = [] ∧ t.teams = [] ∧ t.wdq = [] ∧
        (t.pkg.service = .exploring ∨ t.pkg.service = .bootFail) ∧ t.pkg.lifecycle = life ∧ t.pkg.keyNo = key ∧ t.pkg.resets = n ∧
        t.pkg.flash = s.pkg.flash ∧ t.pkg.wearFlash = s.pkg.wear ∧ t.pkg.cmds = [] ∧ Told h req s t s.mem 0 0
     (stands 8 →
       let life := s.pkg.lifecycle
       let legal : Prop := (life = 1 ∧ (a0 = 2 ∨ a0 = 3)) ∨ (life = 2 ∧ a0 = 3)
       (4 ≤ a0.toNat → does (.lifecycle h a0 a1 a2 a3) 2 0 id) ∧
       (a0.toNat < 4 → ¬ legal → does (.lifecycle h a0 a1 a2 a3) 3 0 id) ∧
       (legal → resets (.lifecycle h a0 a1 a2 a3) (a0.setWidth 2) (if a0 = 3 then none else s.pkg.keyNo) (s.pkg.resets + 1))) ∧
     (stands 10 →
       (s.pkg.lifecycle ≠ 0 → does (.provision h a0 a1 a2 a3) 3 0 id) ∧
       (s.pkg.lifecycle = 0 → a0 ≠ 0 → does (.provision h a0 a1 a2 a3) 2 0 id) ∧
       (s.pkg.lifecycle = 0 → a0 = 0 → ∃ k, resets (.provision h a0 a1 a2 a3) 1 (some k) 1)))) ∧
  (∀ (h : BitVec 1) (code a0 a1 a2 a3 req : U64) (rest : List Command) (s : State), CommandStands h code a0 a1 a2 a3 req rest s →
    (code = 0 ∨ 10 < code.toNat) → Commanded (.badcmd h ⟨code, a0, a1, a2, a3⟩) h req rest 1 0 id s)

/-- R258 to R260, R277, R278: the debug port stops, resumes, reads and writes a wave named by die, cluster and WID, and halts
a die; a peer reaches memory through an inbound region with its key and right, and otherwise gets a NAK and changes nothing; a
congestion notification never raises a queue pair's rate. What the rules leave open in it is the model's choice or reading:
log entries 30, 39, 44 and 46. -/
def Obligations.DebugPortAndInboundRdma : Prop :=
  (∀ (d : BitVec 4) (c : BitVec 6) (wid : U64) (item : BitVec 3) (n j : BitVec 13) (v : U64) (s : State), s.pkg.service = .running →
    let answers (m : String) (x : U64) : State := { s with pkg := { s.pkg with debugOut := some (m, x) } }
    let named : Prop := item = 0 ∧ n.toNat < 32 ∨ item = 1 ∧ n.toNat < 64
    let readable : Prop := named ∨ item = 2 ∧ n.toNat < 8 ∧ j.toNat < 128 ∨
      item = 3 ∧ n.toNat < 4096 ∧ assignedCr (n.setWidth 12) = true ∨ item = 4
    ((∀ w ∈ s.residents d.toNat c.toNat, w.wid ≠ wid) →
      exec (.debugStop d c wid) s = .next (answers "NOWAVE" 0) ∧ exec (.debugResume d c wid) s = .next (answers "NOWAVE" 0) ∧
      (readable → exec (.debugRead d c wid item n j) s = .next (answers "NOWAVE" 0)) ∧
      (named → exec (.debugWrite d c wid item n j v) s = .next (answers "NOWAVE" 0))) ∧
    (∀ id, NamesWave s d.toNat c.toNat wid id →
      let does (i : Instr) (m : String) (p : State → Wave → U64 → Prop) : Prop := Debugged i s id (fun x u =>
        ∃ r, u = { x with w := u.w, pkg := { x.pkg with debugOut := some (m, r) } } ∧ p x u.w r)
      let w := (s.focus id).w
      let off : Prop := w.dbg.stopped = false ∧ w.dbg.vps = []
      (w.dbg.ena = true → does (.debugStop d c wid) "OK" (fun x y r => r = 0 ∧
        y = { x.w with latches := [], dbg := { x.w.dbg with stopped := true } })) ∧
      (w.dbg.ena = false → does (.debugStop d c wid) "NOTSTOPPED" (fun x y r => r = 0 ∧ y = x.w)) ∧
      (off → does (.debugResume d c wid) "NOTSTOPPED" (fun x y r => r = 0 ∧ y = x.w) ∧
        (readable → does (.debugRead d c wid item n j) "NOTSTOPPED" (fun x y r => r = 0 ∧ y = x.w)) ∧
        (named → does (.debugWrite d c wid item n j v) "NOTSTOPPED" (fun x y r => r = 0 ∧ y = x.w))) ∧
      (¬ off →
        does (.debugResume d c wid) "OK" (fun x y r => r = 0 ∧
          y = { x.w with latches := y.latches, dbg := { x.w.dbg with stopped := false, vps := [] } } ∧
          ∀ v, y.latch v = if v ∈ x.w.dbg.vps then [] else x.w.latch v) ∧
        (item = 0 → n.toNat < 32 → does (.debugRead d c wid item n j) "OK" (fun x y r => y = x.w ∧ r = x.w.gs (n.setWidth 5))) ∧
        (item = 1 → n.toNat < 64 → (w.reg n.toNat).st ≠ .spilled → does (.debugRead d c wid item n j) "OK" (fun x y r =>
          y = x.w ∧ r = (x.w.reg n.toNat).elem j.toNat)) ∧
        (item = 2 → n.toNat < 8 → j.toNat < 128 → does (.debugRead d c wid item n j) "OK" (fun x y r =>
          y = x.w ∧ r = BitVec.ofNat 64 ((x.w.mask (n.setWidth 3)).toNat / 2 ^ (64 * j.toNat)))) ∧
        (item = 3 → n.toNat < 4096 → assignedCr (n.setWidth 12) = true → does (.debugRead d c wid item n j) "OK" (fun x y r =>
          y = x.w ∧ r = x.crValue n.toNat)) ∧
        (item = 4 → does (.debugRead d c wid item n j) "OK" (fun x y r => y = x.w ∧ r = imageDword x (n.toNat * 8192 + j.toNat))) ∧
        (named → writePending w item.toNat n.toNat = true →
          (w.dbg.wmode = 0 → does (.debugWrite d c wid item n j v) "PENDING" (fun x y r => r = 0 ∧ y = x.w)) ∧
          (w.dbg.wmode = 1 → ∀ t, exec (.debugWrite d c wid item n j v) s ≠ .next t)) ∧
        (named → (item = 1 → (w.reg n.toNat).st ≠ .spilled ∧ w.grow n.toNat = 0) →
          let put (x : State) (y : Wave) : Prop := (item = 0 → y = x.w.ss (n.setWidth 5) v) ∧
            (item = 1 → y = x.w.writeReg x.free n.toNat [(j.toNat, v)])
          (writePending w item.toNat n.toNat = false → does (.debugWrite d c wid item n j v) "OK" (fun x y r => r = 0 ∧ put x y)) ∧
          (writePending w item.toNat n.toNat = true → w.dbg.wmode = 2 →
            does (.debugWrite d c wid item n j v) "OK" (fun x y r => r = 0 ∧
              (∀ l ∈ y.loads ++ y.vland, l.dst.names item.toNat n.toNat = false) ∧ (∀ q ∈ y.reqs, q.dst.names item.toNat n.toNat = false) ∧
              ∃ z, put x z ∧ y.s = z.s ∧ y.vregs = z.vregs ∧ y.loads.length = x.w.loads.length ∧ y.vland.length = x.w.vland.length ∧
                y.reqs.map (fun q => (q.tgt, q.op, q.size)) = x.w.reqs.map (fun q => (q.tgt, q.op, q.size)))))))) ∧
  (∀ (d : BitVec 4) (s : State), d.toNat < s.ndie → TakesCommands s → spWf ({} : Die) 0 s.dies = true →
    let sets (i : Instr) (b : Bool) : Prop := ∃ t, exec i s = .next t ∧
      t = { s with dies := t.dies, pkg := { s.pkg with debugOut := some ("OK", 0) } } ∧ t.die d.toNat = { s.die d.toNat with halted := b } ∧
      ∀ e, e ≠ d.toNat → t.die e = s.die e
    sets (.haltDie d) true ∧ sets (.unhaltDie d) false) ∧
  (∀ (q : BitVec 13) (k key : BitVec 32) (a : U64) (data : List Byte) (n : BitVec 32) (cas : BitVec 1) (x c : U64) (s : State),
    s.pkg.service = .running → (lkGet s.pkg.qps q.toNat).isSome = true → Memory.wf s.mem = true →
    let pa := a.toNat
    let lets (e : Nat × Region) (len right : Nat) : Prop := e ∈ s.pkg.regions ∧ e.2.valid = true ∧ e.2.key = key ∧ e.2.base.toNat ≤ pa ∧
      pa + len ≤ e.2.base.toNat + e.2.len.toNat ∧ e.2.rights.getLsbD right = true ∧
      ∀ d ∈ s.pkg.cmds, ¬ (d.code = 4 ∧ d.a0.toNat = e.1)
    let open' (len right : Nat) : Prop := ∃ e, lets e len right
    let nak (i : Instr) : Prop := exec i s = .next { s with pkg := { s.pkg with nak := true, rdmaOut := [] } }
    let answers (i : Instr) (out : List Byte) (p : State → Prop) : Prop := ∃ t, exec i s = .next t ∧ p t ∧
      t = { s with mem := t.mem, poison := t.poison, pkg := { s.pkg with nak := false, rdmaOut := out } }
    let clear : Prop := ∀ m ∈ s.pkg.inbound, m.qp ≠ q.toNat
    (¬ open' data.length 1 → nak (.inboundRdmaWrite ⟨q, 0, k, key⟩ a data)) ∧
    (open' data.length 1 → data = [] → answers (.inboundRdmaWrite ⟨q, 0, k, key⟩ a data) [] (fun t => t.mem = s.mem ∧ t.poison = s.poison)) ∧
    (open' data.length 1 → data ≠ [] → ∃ (e : Nat × Region) (parts : List (Nat × List Byte)) (whole : List Nat), lets e data.length 1 ∧
      exec (.inboundRdmaWrite ⟨q, 0, k, key⟩ a data) s = .next { s with pkg := { s.pkg with
        inbound := s.pkg.inbound ++ [⟨q.toNat, e.1, parts, whole⟩], nak := false, rdmaOut := [] } } ∧
      (∀ j, j ∈ whole ↔ pa ≤ 32 * j ∧ 32 * j + 32 ≤ pa + data.length) ∧
      parts.flatMap Prod.snd = data ∧ ∀ i p, parts[i]? = some p → p.1 = pa + ((parts.take i).flatMap Prod.snd).length ∧ p.2 ≠ [] ∧
        p.1 / 8 = (p.1 + p.2.length - 1) / 8) ∧
    (∀ i m p, s.pkg.inbound[i]? = some m → m.qp = q.toNat → (∀ j, j < i → ∀ m', s.pkg.inbound[j]? = some m' → m'.qp ≠ q.toNat) →
      m.parts[k.toNat]? = some p → LinksUp s →
      ∃ t, exec (.inboundRdmaWrite ⟨q, 1, k, key⟩ a data) s = .next t ∧
        t = { s with mem := t.mem, poison := t.poison, pkg := { s.pkg with inbound := t.pkg.inbound } } ∧
        (∀ j, j < p.2.length → Memory.read t.mem (p.1 + j) = p.2.getD j 0) ∧
        (∀ b, b < p.1 ∨ p.1 + p.2.length ≤ b → Memory.read t.mem b = Memory.read s.mem b) ∧
        (∀ j, j ∈ t.poison ↔ j ∈ s.poison ∧ ¬ (p.1 ≤ 32 * j ∧ 32 * j + 32 ≤ p.1 + p.2.length) ∧
          ¬ (j = p.1 / 32 ∧ j ∈ m.whole ∧ ∀ e ∈ m.parts.eraseIdx k.toNat, e.1 / 32 ≠ j)) ∧
        t.pkg.inbound = (let rest := m.parts.eraseIdx k.toNat
          if rest = [] then s.pkg.inbound.eraseIdx i else s.pkg.inbound.set i { m with parts := rest })) ∧
    (clear → LinksUp s →
      (¬ open' n.toNat 0 → nak (.inboundRdmaRead ⟨q, key⟩ a n)) ∧
      (open' n.toNat 0 → answers (.inboundRdmaRead ⟨q, key⟩ a n) ((List.range n.toNat).map (fun j => Memory.read s.mem (pa + j))) (fun t =>
        t.mem = s.mem ∧ t.poison = s.poison)) ∧
      (¬ open' 8 2 ∨ pa % 8 ≠ 0 → nak (.inboundRdmaAtomic ⟨q, key⟩ a cas x c)) ∧
      (open' 8 2 → pa % 8 = 0 → answers (.inboundRdmaAtomic ⟨q, key⟩ a cas x c) ((List.range 8).map (fun j => Memory.read s.mem (pa + j)))
        (fun t =>
          let old := Memory.readN s.mem pa 8
          t.poison = s.poison ∧ (∀ b, b < pa ∨ pa + 8 ≤ b → Memory.read t.mem b = Memory.read s.mem b) ∧
          Memory.readN t.mem pa 8 = if cas = 1 then (if old = c.toNat then x.toNat else old) else (old + x.toNat) % 2 ^ 64)))) ∧
  (∀ (q : BitVec 13) (s : State) (p : Qp), s.pkg.service = .running → lkGet s.pkg.qps q.toNat = some p →
    ∃ r, r ≤ p.rate ∧ exec (.congestionNotificationPacket q) s =
      .next { s with pkg := { s.pkg with qps := lkSet s.pkg.qps q.toNat { p with rate := r } } })

/-! ### Steps, encodings and the machine after reset -/

/-- A step that the agenda gives to a control thread, free to go on with the next instruction and with nothing due at its boundary (R132,
R206, R236, R257), fetches the word at its PC and is `exec` of the instruction that the word decodes to; what the step adds is that the
walks it waited for are used up, that it has passed its breakpoint, and the wave-stop of STEP (R166, R256, R257); the model's own agenda and
counter of free values move on (log entries 1 and 5). While the word is in no cache it waits for it (R206); until an IFETCH fence a cached
word may stand for the stored one (R153). A fetch that the translation refuses, or that finds an error, traps at the PC. A lane's step is
`exec` of its VPs' word, and a row without encoding is `exec` of it. -/
def Obligations.StepRunsDecodedInstruction : Prop :=
  (∀ (s : State) (l : List Choice), s.agenda = { wave := s.w.id, act := .control } :: l →
    let x : State := { s with agenda := l, free := s.free + 1 }
    let runs (i : Instr) : Prop :=
      (∀ t, exec i x = .next t →
        (∃ u, step s = .next u ∧ u = { t with w := { t.w with dbg := u.w.dbg, latches := u.w.latches }, clusters := u.clusters }) ∧
        (NoneDelivered t 0 → t.w.dbg.pass = false →
          (t.w.dbg.ena = false ∨ t.w.dbg.single = false → step s = .next t) ∧
          (t.w.id = s.w.id → t.w.dbg.ena = true → t.w.dbg.single = true → t.w.wait = none → t.w.isResident = true →
            step s = .next { t with w := { t.w with latches := [], dbg := { t.w.dbg with stopped := true } } }))) ∧
      (∀ f, exec i x = .fault f → step s = .fault f) ∧ (∀ r, exec i x = .refused r → step s = .refused r)
    let va := s.w.pc.toNat
    OnDuty s → s.w.active = true → s.w.dbg.stopped = false → s.w.saveFault = false → s.w.leaving = false → s.w.doubleCause = none →
    s.w.wantsMat = false → s.w.wait = none ∨ (∃ why, s.w.wait = some (.stall why)) →
    (s.w.trp.inh = true ∨ s.w.traps = [] ∧ s.w.bud.preempt = false ∧ s.w.bud.exhaust = none ∧ s.w.bud.graceHit = false) →
    (s.w.dbg.ena = false ∨ s.w.dbg.baddr = 0) → va < 2 ^ 60 - 2 ^ 40 → Translated x [va] →
    (∀ pa, translate x s.w.asid s.w.sup Acc.fetch va = .ok (.pkg pa) → s.poisoned pa = false →
      (∀ old, lkGet s.myCluster.icache pa = some old →
        ∃ w : BitVec 32, (w = old ∨ w.toNat = Memory.readN s.mem pa 4) ∧ runs (instrOfWord w)) ∧
      (lkGet s.myCluster.icache pa = none → Canonical s → ∃ t, step s = .next t ∧ t.w = { s.w with wait := some (.stall .fetch) } ∧
        (⟨s.w.id, none, pa / 32⟩ : FetchMiss) ∈ t.myCluster.fmiss ∧ SameBytes s t)) ∧
    (∀ c, translate x s.w.asid s.w.sup Acc.fetch va = .error c ∨
        (c = 0x0F ∧ ∃ pa, translate x s.w.asid s.w.sup Acc.fetch va = .ok (.pkg pa) ∧ s.poisoned pa = true) →
      CanTrap s → NoWalk s 0 → s.w.dbg.pass = false → s.w.dbg.ena = false ∨ s.w.dbg.single = false →
      ∃ t, step s = .next t ∧ TakesTrap x t 0 c 0 0 s.w.pc s.w.pc ∧ TrapLeaves x t)) ∧
  (∀ (s : State) (l : List Choice) (j v id pos rep : Nat) (tg : Option (U64 × Nat)) (b : Bool) (r : Run),
    s.agenda = { wave := s.w.id, act := .lane j } :: l → s.w.nextVp j = some (v, .run id pos rep tg b) → s.w.run? id = some r →
    let x : State := { s with agenda := l, free := s.free + 1 }
    let vs := issueGroup s.w j v r pos rep
    OnDuty s → s.w.active = true → s.w.trp.inh = false → s.w.dbg.stopped = false → s.w.saveFault = false → s.w.doubleCause = none →
    s.w.wantsMat = false → laneTaken s j = false → (∀ u ∈ s.w.ending, s.w.laneOf u ≠ j) →
    (s.w.dbg.ena = false ∨ s.w.dbg.baddr = 0) → (∀ u ∈ vs, u ∉ s.w.dbg.vps) →
    ∀ t, exec (instrOfWord (wordAt r.words pos rep)) { x with agent := .lane r.id vs } = .next t →
      (∃ u, step s = .next u ∧ u = { t with agent := .control, w := { t.w with dbg := u.w.dbg }, clusters := u.clusters }) ∧
      (NoneDelivered t (2 + s.w.laneOf (vs.headD 0)) → t.w.dbg.passVps = [] → step s = .next { t with agent := .control })) ∧
  (∀ (s : State) (l : List Choice) (i : Instr), s.agenda = { wave := s.w.id, act := .event i } :: l → encode i = none →
    step s = exec i { s with agenda := l, free := s.free + 1 })

/-- The word that the encoder gives for a well-formed instruction, any of them with an encoding, decodes to that instruction with every
operand; and a word that decodes to an instruction is the word that the encoder gives for it, so that no word has two readings. -/
def Obligations.DecodeAndEncodeAgree : Prop :=
  (∀ (i : Instr) (w : BitVec 32), wellFormed i = true → encode i = some w → instrOfWord w = i) ∧
  (∀ (i : Instr) (w : BitVec 32), decodeWord w.toNat = some i → encode i = some w)

/-- Package memory keeps its canonical form, addresses rising and no zero byte listed, in every step from every state, so that equal
memories are equal data (log entry 2). -/
def Obligations.MemoryStaysCanonical : Prop :=
  ∀ s t : State, Memory.wf s.mem = true → step s = .next t → Memory.wf t.mem = true

/-- After reset every byte of memory reads 0 and memory is in its canonical form (R274), no wave is resident, no sector is poisoned and no
die is halted; the package waits for an image, since its flash holds none (log entries 2, 3 and 4). A wave at its first placement has
every scalar register 0 but s1, which holds the argument (R197), VL 0, every mask 0, no trap, and rounds to nearest (R111). -/
def Obligations.MachineAfterReset : Prop :=
  Memory.wf State.reset.mem = true ∧ (∀ a, Memory.read State.reset.mem a = 0) ∧ State.reset.w = {} ∧ State.reset.others = [] ∧
  State.reset.poison = [] ∧ (∀ d, (State.reset.die d).halted = false) ∧ (∀ d c, State.reset.residents d c = []) ∧
  State.reset.pkg.service = .bootFail ∧ State.reset.pkg.flash = none ∧
  ∀ (l : Launch) (t m id team die cl base q stamp : Nat),
    let w := newWave l t m id team die cl base q stamp
    (∀ r, w.gs r = if r = 1 then l.arg else 0) ∧ w.pc = l.hdr.entry ∧ w.cfg.vl = 0 ∧ (∀ k, w.mask k = 0) ∧ w.trp.inh = false ∧
      w.cfg.frm = 0 ∧ w.cfg.fflags = 0 ∧ w.vregs = [] ∧ w.xq = [] ∧ w.dbg.ena = false ∧ w.place = .resident die cl

/-- R299: a word with 0x31 in [31:24] is B and one with 0x33 is CALL, with off24 in [23:0]; both set PC := PC + 4 × sext(off24), which
reaches from −2^23 to 2^23 − 1 words, and CALL first writes s31 := PC + 4. -/
def Obligations.BranchAndCallWords : Prop :=
  ∀ (w : BitVec 32) (s : State),
    let o : BitVec 24 := w.setWidth 24
    o.toInt ≤ 2 ^ 23 - 1 ∧ -(2 ^ 23) ≤ o.toInt ∧
    (w.toNat / 2 ^ 24 = 0x31 → instrOfWord w = .br o ∧ encode (.br o) = some w ∧
      (Issues (instrOfWord w) {} s → GoesTo (instrOfWord w) (target s.w.pc o.toInt) s)) ∧
    (w.toNat / 2 ^ 24 = 0x33 → instrOfWord w = .call o ∧ encode (.call o) = some w ∧
      (Issues (instrOfWord w) { deps := [31] } s →
        ∃ t, exec (instrOfWord w) s = .next t ∧ Writes s t 31 (s.w.pc + 4) ∧ t.w.pc = target s.w.pc o.toInt))

/-- R113: a rounded result that overflows its format, so that its magnitude before the exponent is bounded reaches 2^(bias + 1), is
delivered as infinity or as the largest finite number, by mode and sign, and both OF and NX are raised. -/
def Obligations.OverflowIsDelivered : Prop :=
  ∀ (f : Fmt) (mode : RMode) (neg : Bool) (man : Nat) (exp : Int), f ∈ [Fmt.f32, Fmt.f16, Fmt.e8m7] → man ≠ 0 →
    let top : Int := (Nat.log2 man : Int) + exp
    let u := (roundAt mode neg man exp (top - f.fbits)).1
    let infinity : Nat := f.sign neg + (2 ^ f.ebits - 1) * 2 ^ f.fbits
    let overflows : Prop := (f.bias : Int) + 1 ≤ (Nat.log2 u : Int) + (top - f.fbits)
    overflows →
      ((mode = 0 ∨ mode = 2 ∧ neg = true ∨ mode = 3 ∧ neg = false) → rnd f mode neg man exp = (infinity, 0b00101)) ∧
      ((mode = 1 ∨ mode = 2 ∧ neg = false ∨ mode = 3 ∧ neg = true) → rnd f mode neg man exp = (infinity - 1, 0b00101))

/-- R104: a scalar broadcast source, with K = 1 and a code from 8 to 39, supplies bits [EW−1:0] of the named scalar register to every
element, whatever its higher bits. -/
def Obligations.ScalarBroadcastSources : Prop :=
  ∀ (w : Wave) (b : BitVec 8) (v : Nat), b.toNat / 2 ^ 6 = 1 → 8 ≤ b.toNat % 64 → b.toNat % 64 ≤ 39 →
    w.operand b v = (w.gs (BitVec.ofNat 5 (b.toNat % 64 - 8))).toNat % 2 ^ w.ew

/-- R126: a charge of ticks fits when it is at most IBGT and one of sectors when it is at most MBGT; a charge of 0 always fits; a charge
made without a check may take a budget below zero. -/
def Obligations.ChargesFit : Prop :=
  (∀ (w : Wave) (c : Nat), (w.fitsT c = true ↔ c = 0 ∨ (c : Int) ≤ w.bud.ibgt.toInt) ∧
    (w.fitsS c = true ↔ c = 0 ∨ (c : Int) ≤ w.bud.mbgt.toInt)) ∧
  (∀ (w : Wave) (t m : Nat), w.trp.inh = false → -(2 ^ 63) ≤ w.bud.ibgt.toInt - t → -(2 ^ 63) ≤ w.bud.mbgt.toInt - m →
    (w.deduct t m).bud.ibgt.toInt = w.bud.ibgt.toInt - t ∧ (w.deduct t m).bud.mbgt.toInt = w.bud.mbgt.toInt - m)
end

