-- ==== Sys2Proof/Laws/State.lean ====
section
/-! SUPPORT. What each plain update of the state leaves in each field: one lemma per field per update, each true by rfl. -/

namespace Sys2Proof.Machine

/-! ### State.setW -/

@[simp] theorem State.setW_w (s : State) (x : Wave) : (s.setW x).w = x := rfl
@[simp] theorem State.setW_others (s : State) (x : Wave) : (s.setW x).others = s.others := rfl
@[simp] theorem State.setW_clusters (s : State) (x : Wave) : (s.setW x).clusters = s.clusters := rfl
@[simp] theorem State.setW_dies (s : State) (x : Wave) : (s.setW x).dies = s.dies := rfl
@[simp] theorem State.setW_teams (s : State) (x : Wave) : (s.setW x).teams = s.teams := rfl
@[simp] theorem State.setW_mem (s : State) (x : Wave) : (s.setW x).mem = s.mem := rfl
@[simp] theorem State.setW_wdq (s : State) (x : Wave) : (s.setW x).wdq = s.wdq := rfl
@[simp] theorem State.setW_poison (s : State) (x : Wave) : (s.setW x).poison = s.poison := rfl
@[simp] theorem State.setW_pkg (s : State) (x : Wave) : (s.setW x).pkg = s.pkg := rfl
@[simp] theorem State.setW_agent (s : State) (x : Wave) : (s.setW x).agent = s.agent := rfl
@[simp] theorem State.setW_agenda (s : State) (x : Wave) : (s.setW x).agenda = s.agenda := rfl
@[simp] theorem State.setW_free (s : State) (x : Wave) : (s.setW x).free = s.free := rfl
@[simp] theorem State.setW_nextWave (s : State) (x : Wave) : (s.setW x).nextWave = s.nextWave := rfl
@[simp] theorem State.setW_nextTeam (s : State) (x : Wave) : (s.setW x).nextTeam = s.nextTeam := rfl
@[simp] theorem State.setW_sseq (s : State) (x : Wave) : (s.setW x).sseq = s.sseq := rfl

/-! ### State.mapW -/

@[simp] theorem State.mapW_w (s : State) (f : Wave → Wave) : (s.mapW f).w = f s.w := rfl
@[simp] theorem State.mapW_others (s : State) (f : Wave → Wave) : (s.mapW f).others = s.others := rfl
@[simp] theorem State.mapW_clusters (s : State) (f : Wave → Wave) : (s.mapW f).clusters = s.clusters := rfl
@[simp] theorem State.mapW_dies (s : State) (f : Wave → Wave) : (s.mapW f).dies = s.dies := rfl
@[simp] theorem State.mapW_teams (s : State) (f : Wave → Wave) : (s.mapW f).teams = s.teams := rfl
@[simp] theorem State.mapW_mem (s : State) (f : Wave → Wave) : (s.mapW f).mem = s.mem := rfl
@[simp] theorem State.mapW_wdq (s : State) (f : Wave → Wave) : (s.mapW f).wdq = s.wdq := rfl
@[simp] theorem State.mapW_poison (s : State) (f : Wave → Wave) : (s.mapW f).poison = s.poison := rfl
@[simp] theorem State.mapW_pkg (s : State) (f : Wave → Wave) : (s.mapW f).pkg = s.pkg := rfl
@[simp] theorem State.mapW_agent (s : State) (f : Wave → Wave) : (s.mapW f).agent = s.agent := rfl
@[simp] theorem State.mapW_agenda (s : State) (f : Wave → Wave) : (s.mapW f).agenda = s.agenda := rfl
@[simp] theorem State.mapW_free (s : State) (f : Wave → Wave) : (s.mapW f).free = s.free := rfl
@[simp] theorem State.mapW_nextWave (s : State) (f : Wave → Wave) : (s.mapW f).nextWave = s.nextWave := rfl
@[simp] theorem State.mapW_nextTeam (s : State) (f : Wave → Wave) : (s.mapW f).nextTeam = s.nextTeam := rfl
@[simp] theorem State.mapW_sseq (s : State) (f : Wave → Wave) : (s.mapW f).sseq = s.sseq := rfl

/-! ### State.setCluster -/

@[simp] theorem State.setCluster_w (s : State) (d c : Nat) (x : Cluster) : (s.setCluster d c x).w = s.w := rfl
@[simp] theorem State.setCluster_others (s : State) (d c : Nat) (x : Cluster) : (s.setCluster d c x).others = s.others := rfl
@[simp] theorem State.setCluster_clusters (s : State) (d c : Nat) (x : Cluster) : (s.setCluster d c x).clusters = spSet {} s.clusters (clKey d c) x := rfl
@[simp] theorem State.setCluster_dies (s : State) (d c : Nat) (x : Cluster) : (s.setCluster d c x).dies = s.dies := rfl
@[simp] theorem State.setCluster_teams (s : State) (d c : Nat) (x : Cluster) : (s.setCluster d c x).teams = s.teams := rfl
@[simp] theorem State.setCluster_mem (s : State) (d c : Nat) (x : Cluster) : (s.setCluster d c x).mem = s.mem := rfl
@[simp] theorem State.setCluster_wdq (s : State) (d c : Nat) (x : Cluster) : (s.setCluster d c x).wdq = s.wdq := rfl
@[simp] theorem State.setCluster_poison (s : State) (d c : Nat) (x : Cluster) : (s.setCluster d c x).poison = s.poison := rfl
@[simp] theorem State.setCluster_pkg (s : State) (d c : Nat) (x : Cluster) : (s.setCluster d c x).pkg = s.pkg := rfl
@[simp] theorem State.setCluster_agent (s : State) (d c : Nat) (x : Cluster) : (s.setCluster d c x).agent = s.agent := rfl
@[simp] theorem State.setCluster_agenda (s : State) (d c : Nat) (x : Cluster) : (s.setCluster d c x).agenda = s.agenda := rfl
@[simp] theorem State.setCluster_free (s : State) (d c : Nat) (x : Cluster) : (s.setCluster d c x).free = s.free := rfl
@[simp] theorem State.setCluster_nextWave (s : State) (d c : Nat) (x : Cluster) : (s.setCluster d c x).nextWave = s.nextWave := rfl
@[simp] theorem State.setCluster_nextTeam (s : State) (d c : Nat) (x : Cluster) : (s.setCluster d c x).nextTeam = s.nextTeam := rfl
@[simp] theorem State.setCluster_sseq (s : State) (d c : Nat) (x : Cluster) : (s.setCluster d c x).sseq = s.sseq := rfl

/-! ### State.setMyCluster -/

@[simp] theorem State.setMyCluster_w (s : State) (x : Cluster) : (s.setMyCluster x).w = s.w := rfl
@[simp] theorem State.setMyCluster_others (s : State) (x : Cluster) : (s.setMyCluster x).others = s.others := rfl
@[simp] theorem State.setMyCluster_clusters (s : State) (x : Cluster) : (s.setMyCluster x).clusters = spSet {} s.clusters (clKey s.w.die s.w.cl) x := rfl
@[simp] theorem State.setMyCluster_dies (s : State) (x : Cluster) : (s.setMyCluster x).dies = s.dies := rfl
@[simp] theorem State.setMyCluster_teams (s : State) (x : Cluster) : (s.setMyCluster x).teams = s.teams := rfl
@[simp] theorem State.setMyCluster_mem (s : State) (x : Cluster) : (s.setMyCluster x).mem = s.mem := rfl
@[simp] theorem State.setMyCluster_wdq (s : State) (x : Cluster) : (s.setMyCluster x).wdq = s.wdq := rfl
@[simp] theorem State.setMyCluster_poison (s : State) (x : Cluster) : (s.setMyCluster x).poison = s.poison := rfl
@[simp] theorem State.setMyCluster_pkg (s : State) (x : Cluster) : (s.setMyCluster x).pkg = s.pkg := rfl
@[simp] theorem State.setMyCluster_agent (s : State) (x : Cluster) : (s.setMyCluster x).agent = s.agent := rfl
@[simp] theorem State.setMyCluster_agenda (s : State) (x : Cluster) : (s.setMyCluster x).agenda = s.agenda := rfl
@[simp] theorem State.setMyCluster_free (s : State) (x : Cluster) : (s.setMyCluster x).free = s.free := rfl
@[simp] theorem State.setMyCluster_nextWave (s : State) (x : Cluster) : (s.setMyCluster x).nextWave = s.nextWave := rfl
@[simp] theorem State.setMyCluster_nextTeam (s : State) (x : Cluster) : (s.setMyCluster x).nextTeam = s.nextTeam := rfl
@[simp] theorem State.setMyCluster_sseq (s : State) (x : Cluster) : (s.setMyCluster x).sseq = s.sseq := rfl

/-! ### State.setDie -/

@[simp] theorem State.setDie_w (s : State) (d : Nat) (x : Die) : (s.setDie d x).w = s.w := rfl
@[simp] theorem State.setDie_others (s : State) (d : Nat) (x : Die) : (s.setDie d x).others = s.others := rfl
@[simp] theorem State.setDie_clusters (s : State) (d : Nat) (x : Die) : (s.setDie d x).clusters = s.clusters := rfl
@[simp] theorem State.setDie_dies (s : State) (d : Nat) (x : Die) : (s.setDie d x).dies = spSet {} s.dies d x := rfl
@[simp] theorem State.setDie_teams (s : State) (d : Nat) (x : Die) : (s.setDie d x).teams = s.teams := rfl
@[simp] theorem State.setDie_mem (s : State) (d : Nat) (x : Die) : (s.setDie d x).mem = s.mem := rfl
@[simp] theorem State.setDie_wdq (s : State) (d : Nat) (x : Die) : (s.setDie d x).wdq = s.wdq := rfl
@[simp] theorem State.setDie_poison (s : State) (d : Nat) (x : Die) : (s.setDie d x).poison = s.poison := rfl
@[simp] theorem State.setDie_pkg (s : State) (d : Nat) (x : Die) : (s.setDie d x).pkg = s.pkg := rfl
@[simp] theorem State.setDie_agent (s : State) (d : Nat) (x : Die) : (s.setDie d x).agent = s.agent := rfl
@[simp] theorem State.setDie_agenda (s : State) (d : Nat) (x : Die) : (s.setDie d x).agenda = s.agenda := rfl
@[simp] theorem State.setDie_free (s : State) (d : Nat) (x : Die) : (s.setDie d x).free = s.free := rfl
@[simp] theorem State.setDie_nextWave (s : State) (d : Nat) (x : Die) : (s.setDie d x).nextWave = s.nextWave := rfl
@[simp] theorem State.setDie_nextTeam (s : State) (d : Nat) (x : Die) : (s.setDie d x).nextTeam = s.nextTeam := rfl
@[simp] theorem State.setDie_sseq (s : State) (d : Nat) (x : Die) : (s.setDie d x).sseq = s.sseq := rfl

/-! ### State.setTeam -/

@[simp] theorem State.setTeam_w (s : State) (t : Nat) (x : Team) : (s.setTeam t x).w = s.w := rfl
@[simp] theorem State.setTeam_others (s : State) (t : Nat) (x : Team) : (s.setTeam t x).others = s.others := rfl
@[simp] theorem State.setTeam_clusters (s : State) (t : Nat) (x : Team) : (s.setTeam t x).clusters = s.clusters := rfl
@[simp] theorem State.setTeam_dies (s : State) (t : Nat) (x : Team) : (s.setTeam t x).dies = s.dies := rfl
@[simp] theorem State.setTeam_teams (s : State) (t : Nat) (x : Team) : (s.setTeam t x).teams = spSet {} s.teams t x := rfl
@[simp] theorem State.setTeam_mem (s : State) (t : Nat) (x : Team) : (s.setTeam t x).mem = s.mem := rfl
@[simp] theorem State.setTeam_wdq (s : State) (t : Nat) (x : Team) : (s.setTeam t x).wdq = s.wdq := rfl
@[simp] theorem State.setTeam_poison (s : State) (t : Nat) (x : Team) : (s.setTeam t x).poison = s.poison := rfl
@[simp] theorem State.setTeam_pkg (s : State) (t : Nat) (x : Team) : (s.setTeam t x).pkg = s.pkg := rfl
@[simp] theorem State.setTeam_agent (s : State) (t : Nat) (x : Team) : (s.setTeam t x).agent = s.agent := rfl
@[simp] theorem State.setTeam_agenda (s : State) (t : Nat) (x : Team) : (s.setTeam t x).agenda = s.agenda := rfl
@[simp] theorem State.setTeam_free (s : State) (t : Nat) (x : Team) : (s.setTeam t x).free = s.free := rfl
@[simp] theorem State.setTeam_nextWave (s : State) (t : Nat) (x : Team) : (s.setTeam t x).nextWave = s.nextWave := rfl
@[simp] theorem State.setTeam_nextTeam (s : State) (t : Nat) (x : Team) : (s.setTeam t x).nextTeam = s.nextTeam := rfl
@[simp] theorem State.setTeam_sseq (s : State) (t : Nat) (x : Team) : (s.setTeam t x).sseq = s.sseq := rfl

/-! ### State.tick -/

@[simp] theorem State.tick_w (s : State) : (s.tick).w = s.w := rfl
@[simp] theorem State.tick_others (s : State) : (s.tick).others = s.others := rfl
@[simp] theorem State.tick_clusters (s : State) : (s.tick).clusters = s.clusters := rfl
@[simp] theorem State.tick_dies (s : State) : (s.tick).dies = s.dies := rfl
@[simp] theorem State.tick_teams (s : State) : (s.tick).teams = s.teams := rfl
@[simp] theorem State.tick_mem (s : State) : (s.tick).mem = s.mem := rfl
@[simp] theorem State.tick_wdq (s : State) : (s.tick).wdq = s.wdq := rfl
@[simp] theorem State.tick_poison (s : State) : (s.tick).poison = s.poison := rfl
@[simp] theorem State.tick_pkg (s : State) : (s.tick).pkg = s.pkg := rfl
@[simp] theorem State.tick_agent (s : State) : (s.tick).agent = s.agent := rfl
@[simp] theorem State.tick_agenda (s : State) : (s.tick).agenda = s.agenda := rfl
@[simp] theorem State.tick_free (s : State) : (s.tick).free = s.free + 1 := rfl
@[simp] theorem State.tick_nextWave (s : State) : (s.tick).nextWave = s.nextWave := rfl
@[simp] theorem State.tick_nextTeam (s : State) : (s.tick).nextTeam = s.nextTeam := rfl
@[simp] theorem State.tick_sseq (s : State) : (s.tick).sseq = s.sseq := rfl

/-! ### advance -/

@[simp] theorem advance_w (s : State) : (advance s).w = { s.w with pc := s.w.pc + 4, wait := none } := rfl
@[simp] theorem advance_others (s : State) : (advance s).others = s.others := rfl
@[simp] theorem advance_clusters (s : State) : (advance s).clusters = s.clusters := rfl
@[simp] theorem advance_dies (s : State) : (advance s).dies = s.dies := rfl
@[simp] theorem advance_teams (s : State) : (advance s).teams = s.teams := rfl
@[simp] theorem advance_mem (s : State) : (advance s).mem = s.mem := rfl
@[simp] theorem advance_wdq (s : State) : (advance s).wdq = s.wdq := rfl
@[simp] theorem advance_poison (s : State) : (advance s).poison = s.poison := rfl
@[simp] theorem advance_pkg (s : State) : (advance s).pkg = s.pkg := rfl
@[simp] theorem advance_agent (s : State) : (advance s).agent = s.agent := rfl
@[simp] theorem advance_agenda (s : State) : (advance s).agenda = s.agenda := rfl
@[simp] theorem advance_free (s : State) : (advance s).free = s.free := rfl
@[simp] theorem advance_nextWave (s : State) : (advance s).nextWave = s.nextWave := rfl
@[simp] theorem advance_nextTeam (s : State) : (advance s).nextTeam = s.nextTeam := rfl
@[simp] theorem advance_sseq (s : State) : (advance s).sseq = s.sseq := rfl

/-! ### jumpTo -/

@[simp] theorem jumpTo_w (s : State) (a : U64) : (jumpTo s a).w = { s.w with pc := a, wait := none } := rfl
@[simp] theorem jumpTo_others (s : State) (a : U64) : (jumpTo s a).others = s.others := rfl
@[simp] theorem jumpTo_clusters (s : State) (a : U64) : (jumpTo s a).clusters = s.clusters := rfl
@[simp] theorem jumpTo_dies (s : State) (a : U64) : (jumpTo s a).dies = s.dies := rfl
@[simp] theorem jumpTo_teams (s : State) (a : U64) : (jumpTo s a).teams = s.teams := rfl
@[simp] theorem jumpTo_mem (s : State) (a : U64) : (jumpTo s a).mem = s.mem := rfl
@[simp] theorem jumpTo_wdq (s : State) (a : U64) : (jumpTo s a).wdq = s.wdq := rfl
@[simp] theorem jumpTo_poison (s : State) (a : U64) : (jumpTo s a).poison = s.poison := rfl
@[simp] theorem jumpTo_pkg (s : State) (a : U64) : (jumpTo s a).pkg = s.pkg := rfl
@[simp] theorem jumpTo_agent (s : State) (a : U64) : (jumpTo s a).agent = s.agent := rfl
@[simp] theorem jumpTo_agenda (s : State) (a : U64) : (jumpTo s a).agenda = s.agenda := rfl
@[simp] theorem jumpTo_free (s : State) (a : U64) : (jumpTo s a).free = s.free := rfl
@[simp] theorem jumpTo_nextWave (s : State) (a : U64) : (jumpTo s a).nextWave = s.nextWave := rfl
@[simp] theorem jumpTo_nextTeam (s : State) (a : U64) : (jumpTo s a).nextTeam = s.nextTeam := rfl
@[simp] theorem jumpTo_sseq (s : State) (a : U64) : (jumpTo s a).sseq = s.sseq := rfl

/-! ### setS -/

@[simp] theorem setS_w (s : State) (r : BitVec 5) (v : U64) : (setS s r v).w = s.w.ss r v := rfl
@[simp] theorem setS_others (s : State) (r : BitVec 5) (v : U64) : (setS s r v).others = s.others := rfl
@[simp] theorem setS_clusters (s : State) (r : BitVec 5) (v : U64) : (setS s r v).clusters = s.clusters := rfl
@[simp] theorem setS_dies (s : State) (r : BitVec 5) (v : U64) : (setS s r v).dies = s.dies := rfl
@[simp] theorem setS_teams (s : State) (r : BitVec 5) (v : U64) : (setS s r v).teams = s.teams := rfl
@[simp] theorem setS_mem (s : State) (r : BitVec 5) (v : U64) : (setS s r v).mem = s.mem := rfl
@[simp] theorem setS_wdq (s : State) (r : BitVec 5) (v : U64) : (setS s r v).wdq = s.wdq := rfl
@[simp] theorem setS_poison (s : State) (r : BitVec 5) (v : U64) : (setS s r v).poison = s.poison := rfl
@[simp] theorem setS_pkg (s : State) (r : BitVec 5) (v : U64) : (setS s r v).pkg = s.pkg := rfl
@[simp] theorem setS_agent (s : State) (r : BitVec 5) (v : U64) : (setS s r v).agent = s.agent := rfl
@[simp] theorem setS_agenda (s : State) (r : BitVec 5) (v : U64) : (setS s r v).agenda = s.agenda := rfl
@[simp] theorem setS_free (s : State) (r : BitVec 5) (v : U64) : (setS s r v).free = s.free := rfl
@[simp] theorem setS_nextWave (s : State) (r : BitVec 5) (v : U64) : (setS s r v).nextWave = s.nextWave := rfl
@[simp] theorem setS_nextTeam (s : State) (r : BitVec 5) (v : U64) : (setS s r v).nextTeam = s.nextTeam := rfl
@[simp] theorem setS_sseq (s : State) (r : BitVec 5) (v : U64) : (setS s r v).sseq = s.sseq := rfl

/-! ### nextSeq -/

@[simp] theorem nextSeq_w (s : State) : (nextSeq s).w = s.w := rfl
@[simp] theorem nextSeq_others (s : State) : (nextSeq s).others = s.others := rfl
@[simp] theorem nextSeq_clusters (s : State) : (nextSeq s).clusters = s.clusters := rfl
@[simp] theorem nextSeq_dies (s : State) : (nextSeq s).dies = s.dies := rfl
@[simp] theorem nextSeq_teams (s : State) : (nextSeq s).teams = s.teams := rfl
@[simp] theorem nextSeq_mem (s : State) : (nextSeq s).mem = s.mem := rfl
@[simp] theorem nextSeq_wdq (s : State) : (nextSeq s).wdq = s.wdq := rfl
@[simp] theorem nextSeq_poison (s : State) : (nextSeq s).poison = s.poison := rfl
@[simp] theorem nextSeq_pkg (s : State) : (nextSeq s).pkg = s.pkg := rfl
@[simp] theorem nextSeq_agent (s : State) : (nextSeq s).agent = s.agent := rfl
@[simp] theorem nextSeq_agenda (s : State) : (nextSeq s).agenda = s.agenda := rfl
@[simp] theorem nextSeq_free (s : State) : (nextSeq s).free = s.free := rfl
@[simp] theorem nextSeq_nextWave (s : State) : (nextSeq s).nextWave = s.nextWave := rfl
@[simp] theorem nextSeq_nextTeam (s : State) : (nextSeq s).nextTeam = s.nextTeam := rfl
@[simp] theorem nextSeq_sseq (s : State) : (nextSeq s).sseq = s.sseq + 1 := rfl

/-! ### enqueue -/

@[simp] theorem enqueue_w (s : State) (e : QEntry) : (enqueue s e).w = { s.w with vq := s.w.vq ++ [e] } := rfl
@[simp] theorem enqueue_others (s : State) (e : QEntry) : (enqueue s e).others = s.others := rfl
@[simp] theorem enqueue_clusters (s : State) (e : QEntry) : (enqueue s e).clusters = s.clusters := rfl
@[simp] theorem enqueue_dies (s : State) (e : QEntry) : (enqueue s e).dies = s.dies := rfl
@[simp] theorem enqueue_teams (s : State) (e : QEntry) : (enqueue s e).teams = s.teams := rfl
@[simp] theorem enqueue_mem (s : State) (e : QEntry) : (enqueue s e).mem = s.mem := rfl
@[simp] theorem enqueue_wdq (s : State) (e : QEntry) : (enqueue s e).wdq = s.wdq := rfl
@[simp] theorem enqueue_poison (s : State) (e : QEntry) : (enqueue s e).poison = s.poison := rfl
@[simp] theorem enqueue_pkg (s : State) (e : QEntry) : (enqueue s e).pkg = s.pkg := rfl
@[simp] theorem enqueue_agent (s : State) (e : QEntry) : (enqueue s e).agent = s.agent := rfl
@[simp] theorem enqueue_agenda (s : State) (e : QEntry) : (enqueue s e).agenda = s.agenda := rfl
@[simp] theorem enqueue_free (s : State) (e : QEntry) : (enqueue s e).free = s.free := rfl
@[simp] theorem enqueue_nextWave (s : State) (e : QEntry) : (enqueue s e).nextWave = s.nextWave := rfl
@[simp] theorem enqueue_nextTeam (s : State) (e : QEntry) : (enqueue s e).nextTeam = s.nextTeam := rfl
@[simp] theorem enqueue_sseq (s : State) (e : QEntry) : (enqueue s e).sseq = s.sseq := rfl

/-! ### waiting -/

@[simp] theorem waiting_w (i : Instr) (p : Nat) (s : State) : (waiting i p s).w = { s.w with wait := some (.issued i p) } := rfl
@[simp] theorem waiting_others (i : Instr) (p : Nat) (s : State) : (waiting i p s).others = s.others := rfl
@[simp] theorem waiting_clusters (i : Instr) (p : Nat) (s : State) : (waiting i p s).clusters = s.clusters := rfl
@[simp] theorem waiting_dies (i : Instr) (p : Nat) (s : State) : (waiting i p s).dies = s.dies := rfl
@[simp] theorem waiting_teams (i : Instr) (p : Nat) (s : State) : (waiting i p s).teams = s.teams := rfl
@[simp] theorem waiting_mem (i : Instr) (p : Nat) (s : State) : (waiting i p s).mem = s.mem := rfl
@[simp] theorem waiting_wdq (i : Instr) (p : Nat) (s : State) : (waiting i p s).wdq = s.wdq := rfl
@[simp] theorem waiting_poison (i : Instr) (p : Nat) (s : State) : (waiting i p s).poison = s.poison := rfl
@[simp] theorem waiting_pkg (i : Instr) (p : Nat) (s : State) : (waiting i p s).pkg = s.pkg := rfl
@[simp] theorem waiting_agent (i : Instr) (p : Nat) (s : State) : (waiting i p s).agent = s.agent := rfl
@[simp] theorem waiting_agenda (i : Instr) (p : Nat) (s : State) : (waiting i p s).agenda = s.agenda := rfl
@[simp] theorem waiting_free (i : Instr) (p : Nat) (s : State) : (waiting i p s).free = s.free := rfl
@[simp] theorem waiting_nextWave (i : Instr) (p : Nat) (s : State) : (waiting i p s).nextWave = s.nextWave := rfl
@[simp] theorem waiting_nextTeam (i : Instr) (p : Nat) (s : State) : (waiting i p s).nextTeam = s.nextTeam := rfl
@[simp] theorem waiting_sseq (i : Instr) (p : Nat) (s : State) : (waiting i p s).sseq = s.sseq := rfl

/-! ### stalled -/

@[simp] theorem stalled_w (why : Stall) (s : State) : (stalled why s).w = { s.w with wait := some (.stall why) } := rfl
@[simp] theorem stalled_others (why : Stall) (s : State) : (stalled why s).others = s.others := rfl
@[simp] theorem stalled_clusters (why : Stall) (s : State) : (stalled why s).clusters = s.clusters := rfl
@[simp] theorem stalled_dies (why : Stall) (s : State) : (stalled why s).dies = s.dies := rfl
@[simp] theorem stalled_teams (why : Stall) (s : State) : (stalled why s).teams = s.teams := rfl
@[simp] theorem stalled_mem (why : Stall) (s : State) : (stalled why s).mem = s.mem := rfl
@[simp] theorem stalled_wdq (why : Stall) (s : State) : (stalled why s).wdq = s.wdq := rfl
@[simp] theorem stalled_poison (why : Stall) (s : State) : (stalled why s).poison = s.poison := rfl
@[simp] theorem stalled_pkg (why : Stall) (s : State) : (stalled why s).pkg = s.pkg := rfl
@[simp] theorem stalled_agent (why : Stall) (s : State) : (stalled why s).agent = s.agent := rfl
@[simp] theorem stalled_agenda (why : Stall) (s : State) : (stalled why s).agenda = s.agenda := rfl
@[simp] theorem stalled_free (why : Stall) (s : State) : (stalled why s).free = s.free := rfl
@[simp] theorem stalled_nextWave (why : Stall) (s : State) : (stalled why s).nextWave = s.nextWave := rfl
@[simp] theorem stalled_nextTeam (why : Stall) (s : State) : (stalled why s).nextTeam = s.nextTeam := rfl
@[simp] theorem stalled_sseq (why : Stall) (s : State) : (stalled why s).sseq = s.sseq := rfl

/-! ### charged -/

@[simp] theorem charged_w (g : Gate) (s : State) : (charged g s).w = { s.w.deduct g.ticks g.sectors with wait := none } := rfl
@[simp] theorem charged_others (g : Gate) (s : State) : (charged g s).others = s.others := rfl
@[simp] theorem charged_clusters (g : Gate) (s : State) : (charged g s).clusters = s.clusters := rfl
@[simp] theorem charged_dies (g : Gate) (s : State) : (charged g s).dies = s.dies := rfl
@[simp] theorem charged_teams (g : Gate) (s : State) : (charged g s).teams = s.teams := rfl
@[simp] theorem charged_mem (g : Gate) (s : State) : (charged g s).mem = s.mem := rfl
@[simp] theorem charged_wdq (g : Gate) (s : State) : (charged g s).wdq = s.wdq := rfl
@[simp] theorem charged_poison (g : Gate) (s : State) : (charged g s).poison = s.poison := rfl
@[simp] theorem charged_pkg (g : Gate) (s : State) : (charged g s).pkg = s.pkg := rfl
@[simp] theorem charged_agent (g : Gate) (s : State) : (charged g s).agent = s.agent := rfl
@[simp] theorem charged_agenda (g : Gate) (s : State) : (charged g s).agenda = s.agenda := rfl
@[simp] theorem charged_free (g : Gate) (s : State) : (charged g s).free = s.free := rfl
@[simp] theorem charged_nextWave (g : Gate) (s : State) : (charged g s).nextWave = s.nextWave := rfl
@[simp] theorem charged_nextTeam (g : Gate) (s : State) : (charged g s).nextTeam = s.nextTeam := rfl
@[simp] theorem charged_sseq (g : Gate) (s : State) : (charged g s).sseq = s.sseq := rfl

/-! ### raise -/

@[simp] theorem raise_w (s : State) (t : PTrap) : (raise s t).w = { s.w with traps := s.w.traps ++ [t] } := rfl
@[simp] theorem raise_others (s : State) (t : PTrap) : (raise s t).others = s.others := rfl
@[simp] theorem raise_clusters (s : State) (t : PTrap) : (raise s t).clusters = s.clusters := rfl
@[simp] theorem raise_dies (s : State) (t : PTrap) : (raise s t).dies = s.dies := rfl
@[simp] theorem raise_teams (s : State) (t : PTrap) : (raise s t).teams = s.teams := rfl
@[simp] theorem raise_mem (s : State) (t : PTrap) : (raise s t).mem = s.mem := rfl
@[simp] theorem raise_wdq (s : State) (t : PTrap) : (raise s t).wdq = s.wdq := rfl
@[simp] theorem raise_poison (s : State) (t : PTrap) : (raise s t).poison = s.poison := rfl
@[simp] theorem raise_pkg (s : State) (t : PTrap) : (raise s t).pkg = s.pkg := rfl
@[simp] theorem raise_agent (s : State) (t : PTrap) : (raise s t).agent = s.agent := rfl
@[simp] theorem raise_agenda (s : State) (t : PTrap) : (raise s t).agenda = s.agenda := rfl
@[simp] theorem raise_free (s : State) (t : PTrap) : (raise s t).free = s.free := rfl
@[simp] theorem raise_nextWave (s : State) (t : PTrap) : (raise s t).nextWave = s.nextWave := rfl
@[simp] theorem raise_nextTeam (s : State) (t : PTrap) : (raise s t).nextTeam = s.nextTeam := rfl
@[simp] theorem raise_sseq (s : State) (t : PTrap) : (raise s t).sseq = s.sseq := rfl

/-! ### Fields of the focused wave after a charge -/

@[simp] theorem Wave.deduct_id (w : Wave) (t m : Nat) : (w.deduct t m).id = w.id := by unfold Wave.deduct; split <;> rfl
@[simp] theorem Wave.deduct_place (w : Wave) (t m : Nat) : (w.deduct t m).place = w.place := by unfold Wave.deduct; split <;> rfl
@[simp] theorem Wave.deduct_active (w : Wave) (t m : Nat) : (w.deduct t m).active = w.active := by unfold Wave.deduct; split <;> rfl
@[simp] theorem Wave.deduct_hdr (w : Wave) (t m : Nat) : (w.deduct t m).hdr = w.hdr := by unfold Wave.deduct; split <;> rfl
@[simp] theorem Wave.deduct_team (w : Wave) (t m : Nat) : (w.deduct t m).team = w.team := by unfold Wave.deduct; split <;> rfl
@[simp] theorem Wave.deduct_member (w : Wave) (t m : Nat) : (w.deduct t m).member = w.member := by unfold Wave.deduct; split <;> rfl
@[simp] theorem Wave.deduct_anc (w : Wave) (t m : Nat) : (w.deduct t m).anc = w.anc := by unfold Wave.deduct; split <;> rfl
@[simp] theorem Wave.deduct_asid (w : Wave) (t m : Nat) : (w.deduct t m).asid = w.asid := by unfold Wave.deduct; split <;> rfl
@[simp] theorem Wave.deduct_sup (w : Wave) (t m : Nat) : (w.deduct t m).sup = w.sup := by unfold Wave.deduct; split <;> rfl
@[simp] theorem Wave.deduct_depth (w : Wave) (t m : Nat) : (w.deduct t m).depth = w.depth := by unfold Wave.deduct; split <;> rfl
@[simp] theorem Wave.deduct_limit (w : Wave) (t m : Nat) : (w.deduct t m).limit = w.limit := by unfold Wave.deduct; split <;> rfl
@[simp] theorem Wave.deduct_wid (w : Wave) (t m : Nat) : (w.deduct t m).wid = w.wid := by unfold Wave.deduct; split <;> rfl
@[simp] theorem Wave.deduct_stamp (w : Wave) (t m : Nat) : (w.deduct t m).stamp = w.stamp := by unfold Wave.deduct; split <;> rfl
@[simp] theorem Wave.deduct_base (w : Wave) (t m : Nat) : (w.deduct t m).base = w.base := by unfold Wave.deduct; split <;> rfl
@[simp] theorem Wave.deduct_placed (w : Wave) (t m : Nat) : (w.deduct t m).placed = w.placed := by unfold Wave.deduct; split <;> rfl
@[simp] theorem Wave.deduct_s (w : Wave) (t m : Nat) : (w.deduct t m).s = w.s := by unfold Wave.deduct; split <;> rfl
@[simp] theorem Wave.deduct_pc (w : Wave) (t m : Nat) : (w.deduct t m).pc = w.pc := by unfold Wave.deduct; split <;> rfl
@[simp] theorem Wave.deduct_cfg (w : Wave) (t m : Nat) : (w.deduct t m).cfg = w.cfg := by unfold Wave.deduct; split <;> rfl
@[simp] theorem Wave.deduct_ctl (w : Wave) (t m : Nat) : (w.deduct t m).ctl = w.ctl := by unfold Wave.deduct; split <;> rfl
@[simp] theorem Wave.deduct_trp (w : Wave) (t m : Nat) : (w.deduct t m).trp = w.trp := by unfold Wave.deduct; split <;> rfl
@[simp] theorem Wave.deduct_dbg (w : Wave) (t m : Nat) : (w.deduct t m).dbg = w.dbg := by unfold Wave.deduct; split <;> rfl
@[simp] theorem Wave.deduct_wm (w : Wave) (t m : Nat) : (w.deduct t m).wm = w.wm := by unfold Wave.deduct; split <;> rfl
@[simp] theorem Wave.deduct_masks (w : Wave) (t m : Nat) : (w.deduct t m).masks = w.masks := by unfold Wave.deduct; split <;> rfl
@[simp] theorem Wave.deduct_vregs (w : Wave) (t m : Nat) : (w.deduct t m).vregs = w.vregs := by unfold Wave.deduct; split <;> rfl
@[simp] theorem Wave.deduct_qseg (w : Wave) (t m : Nat) : (w.deduct t m).qseg = w.qseg := by unfold Wave.deduct; split <;> rfl
@[simp] theorem Wave.deduct_qage (w : Wave) (t m : Nat) : (w.deduct t m).qage = w.qage := by unfold Wave.deduct; split <;> rfl
@[simp] theorem Wave.deduct_xq (w : Wave) (t m : Nat) : (w.deduct t m).xq = w.xq := by unfold Wave.deduct; split <;> rfl
@[simp] theorem Wave.deduct_latches (w : Wave) (t m : Nat) : (w.deduct t m).latches = w.latches := by unfold Wave.deduct; split <;> rfl
@[simp] theorem Wave.deduct_vps (w : Wave) (t m : Nat) : (w.deduct t m).vps = w.vps := by unfold Wave.deduct; split <;> rfl
@[simp] theorem Wave.deduct_runs (w : Wave) (t m : Nat) : (w.deduct t m).runs = w.runs := by unfold Wave.deduct; split <;> rfl
@[simp] theorem Wave.deduct_frontier (w : Wave) (t m : Nat) : (w.deduct t m).frontier = w.frontier := by unfold Wave.deduct; split <;> rfl
@[simp] theorem Wave.deduct_serialVp (w : Wave) (t m : Nat) : (w.deduct t m).serialVp = w.serialVp := by unfold Wave.deduct; split <;> rfl
@[simp] theorem Wave.deduct_vq (w : Wave) (t m : Nat) : (w.deduct t m).vq = w.vq := by unfold Wave.deduct; split <;> rfl
@[simp] theorem Wave.deduct_fetches (w : Wave) (t m : Nat) : (w.deduct t m).fetches = w.fetches := by unfold Wave.deduct; split <;> rfl
@[simp] theorem Wave.deduct_mat (w : Wave) (t m : Nat) : (w.deduct t m).mat = w.mat := by unfold Wave.deduct; split <;> rfl
@[simp] theorem Wave.deduct_markers (w : Wave) (t m : Nat) : (w.deduct t m).markers = w.markers := by unfold Wave.deduct; split <;> rfl
@[simp] theorem Wave.deduct_offers (w : Wave) (t m : Nat) : (w.deduct t m).offers = w.offers := by unfold Wave.deduct; split <;> rfl
@[simp] theorem Wave.deduct_cmdb (w : Wave) (t m : Nat) : (w.deduct t m).cmdb = w.cmdb := by unfold Wave.deduct; split <;> rfl
@[simp] theorem Wave.deduct_tiles (w : Wave) (t m : Nat) : (w.deduct t m).tiles = w.tiles := by unfold Wave.deduct; split <;> rfl
@[simp] theorem Wave.deduct_everOwned (w : Wave) (t m : Nat) : (w.deduct t m).everOwned = w.everOwned := by unfold Wave.deduct; split <;> rfl
@[simp] theorem Wave.deduct_wantsMat (w : Wave) (t m : Nat) : (w.deduct t m).wantsMat = w.wantsMat := by unfold Wave.deduct; split <;> rfl
@[simp] theorem Wave.deduct_mepi (w : Wave) (t m : Nat) : (w.deduct t m).mepi = w.mepi := by unfold Wave.deduct; split <;> rfl
@[simp] theorem Wave.deduct_loads (w : Wave) (t m : Nat) : (w.deduct t m).loads = w.loads := by unfold Wave.deduct; split <;> rfl
@[simp] theorem Wave.deduct_vland (w : Wave) (t m : Nat) : (w.deduct t m).vland = w.vland := by unfold Wave.deduct; split <;> rfl
@[simp] theorem Wave.deduct_reqs (w : Wave) (t m : Nat) : (w.deduct t m).reqs = w.reqs := by unfold Wave.deduct; split <;> rfl
@[simp] theorem Wave.deduct_replies (w : Wave) (t m : Nat) : (w.deduct t m).replies = w.replies := by unfold Wave.deduct; split <;> rfl
@[simp] theorem Wave.deduct_wait (w : Wave) (t m : Nat) : (w.deduct t m).wait = w.wait := by unfold Wave.deduct; split <;> rfl
@[simp] theorem Wave.deduct_fence (w : Wave) (t m : Nat) : (w.deduct t m).fence = w.fence := by unfold Wave.deduct; split <;> rfl
@[simp] theorem Wave.deduct_stallLong (w : Wave) (t m : Nat) : (w.deduct t m).stallLong = w.stallLong := by unfold Wave.deduct; split <;> rfl
@[simp] theorem Wave.deduct_traps (w : Wave) (t m : Nat) : (w.deduct t m).traps = w.traps := by unfold Wave.deduct; split <;> rfl
@[simp] theorem Wave.deduct_badRows (w : Wave) (t m : Nat) : (w.deduct t m).badRows = w.badRows := by unfold Wave.deduct; split <;> rfl
@[simp] theorem Wave.deduct_want (w : Wave) (t m : Nat) : (w.deduct t m).want = w.want := by unfold Wave.deduct; split <;> rfl
@[simp] theorem Wave.deduct_segNeed (w : Wave) (t m : Nat) : (w.deduct t m).segNeed = w.segNeed := by unfold Wave.deduct; split <;> rfl
@[simp] theorem Wave.deduct_spillBad (w : Wave) (t m : Nat) : (w.deduct t m).spillBad = w.spillBad := by unfold Wave.deduct; split <;> rfl
@[simp] theorem Wave.deduct_saveFault (w : Wave) (t m : Nat) : (w.deduct t m).saveFault = w.saveFault := by unfold Wave.deduct; split <;> rfl
@[simp] theorem Wave.deduct_leaving (w : Wave) (t m : Nat) : (w.deduct t m).leaving = w.leaving := by unfold Wave.deduct; split <;> rfl
@[simp] theorem Wave.deduct_savePc (w : Wave) (t m : Nat) : (w.deduct t m).savePc = w.savePc := by unfold Wave.deduct; split <;> rfl
@[simp] theorem Wave.deduct_doubleCause (w : Wave) (t m : Nat) : (w.deduct t m).doubleCause = w.doubleCause := by unfold Wave.deduct; split <;> rfl
@[simp] theorem Wave.deduct_recCause (w : Wave) (t m : Nat) : (w.deduct t m).recCause = w.recCause := by unfold Wave.deduct; split <;> rfl
@[simp] theorem Wave.ss_id (w : Wave) (r : BitVec 5) (v : U64) : (w.ss r v).id = w.id := by unfold Wave.ss; split <;> rfl
@[simp] theorem Wave.ss_place (w : Wave) (r : BitVec 5) (v : U64) : (w.ss r v).place = w.place := by unfold Wave.ss; split <;> rfl
@[simp] theorem Wave.ss_active (w : Wave) (r : BitVec 5) (v : U64) : (w.ss r v).active = w.active := by unfold Wave.ss; split <;> rfl
@[simp] theorem Wave.ss_hdr (w : Wave) (r : BitVec 5) (v : U64) : (w.ss r v).hdr = w.hdr := by unfold Wave.ss; split <;> rfl
@[simp] theorem Wave.ss_team (w : Wave) (r : BitVec 5) (v : U64) : (w.ss r v).team = w.team := by unfold Wave.ss; split <;> rfl
@[simp] theorem Wave.ss_member (w : Wave) (r : BitVec 5) (v : U64) : (w.ss r v).member = w.member := by unfold Wave.ss; split <;> rfl
@[simp] theorem Wave.ss_anc (w : Wave) (r : BitVec 5) (v : U64) : (w.ss r v).anc = w.anc := by unfold Wave.ss; split <;> rfl
@[simp] theorem Wave.ss_asid (w : Wave) (r : BitVec 5) (v : U64) : (w.ss r v).asid = w.asid := by unfold Wave.ss; split <;> rfl
@[simp] theorem Wave.ss_sup (w : Wave) (r : BitVec 5) (v : U64) : (w.ss r v).sup = w.sup := by unfold Wave.ss; split <;> rfl
@[simp] theorem Wave.ss_depth (w : Wave) (r : BitVec 5) (v : U64) : (w.ss r v).depth = w.depth := by unfold Wave.ss; split <;> rfl
@[simp] theorem Wave.ss_limit (w : Wave) (r : BitVec 5) (v : U64) : (w.ss r v).limit = w.limit := by unfold Wave.ss; split <;> rfl
@[simp] theorem Wave.ss_wid (w : Wave) (r : BitVec 5) (v : U64) : (w.ss r v).wid = w.wid := by unfold Wave.ss; split <;> rfl
@[simp] theorem Wave.ss_stamp (w : Wave) (r : BitVec 5) (v : U64) : (w.ss r v).stamp = w.stamp := by unfold Wave.ss; split <;> rfl
@[simp] theorem Wave.ss_base (w : Wave) (r : BitVec 5) (v : U64) : (w.ss r v).base = w.base := by unfold Wave.ss; split <;> rfl
@[simp] theorem Wave.ss_placed (w : Wave) (r : BitVec 5) (v : U64) : (w.ss r v).placed = w.placed := by unfold Wave.ss; split <;> rfl
@[simp] theorem Wave.ss_pc (w : Wave) (r : BitVec 5) (v : U64) : (w.ss r v).pc = w.pc := by unfold Wave.ss; split <;> rfl
@[simp] theorem Wave.ss_cfg (w : Wave) (r : BitVec 5) (v : U64) : (w.ss r v).cfg = w.cfg := by unfold Wave.ss; split <;> rfl
@[simp] theorem Wave.ss_ctl (w : Wave) (r : BitVec 5) (v : U64) : (w.ss r v).ctl = w.ctl := by unfold Wave.ss; split <;> rfl
@[simp] theorem Wave.ss_bud (w : Wave) (r : BitVec 5) (v : U64) : (w.ss r v).bud = w.bud := by unfold Wave.ss; split <;> rfl
@[simp] theorem Wave.ss_trp (w : Wave) (r : BitVec 5) (v : U64) : (w.ss r v).trp = w.trp := by unfold Wave.ss; split <;> rfl
@[simp] theorem Wave.ss_dbg (w : Wave) (r : BitVec 5) (v : U64) : (w.ss r v).dbg = w.dbg := by unfold Wave.ss; split <;> rfl
@[simp] theorem Wave.ss_wm (w : Wave) (r : BitVec 5) (v : U64) : (w.ss r v).wm = w.wm := by unfold Wave.ss; split <;> rfl
@[simp] theorem Wave.ss_masks (w : Wave) (r : BitVec 5) (v : U64) : (w.ss r v).masks = w.masks := by unfold Wave.ss; split <;> rfl
@[simp] theorem Wave.ss_vregs (w : Wave) (r : BitVec 5) (v : U64) : (w.ss r v).vregs = w.vregs := by unfold Wave.ss; split <;> rfl
@[simp] theorem Wave.ss_qseg (w : Wave) (r : BitVec 5) (v : U64) : (w.ss r v).qseg = w.qseg := by unfold Wave.ss; split <;> rfl
@[simp] theorem Wave.ss_qage (w : Wave) (r : BitVec 5) (v : U64) : (w.ss r v).qage = w.qage := by unfold Wave.ss; split <;> rfl
@[simp] theorem Wave.ss_xq (w : Wave) (r : BitVec 5) (v : U64) : (w.ss r v).xq = w.xq := by unfold Wave.ss; split <;> rfl
@[simp] theorem Wave.ss_latches (w : Wave) (r : BitVec 5) (v : U64) : (w.ss r v).latches = w.latches := by unfold Wave.ss; split <;> rfl
@[simp] theorem Wave.ss_vps (w : Wave) (r : BitVec 5) (v : U64) : (w.ss r v).vps = w.vps := by unfold Wave.ss; split <;> rfl
@[simp] theorem Wave.ss_runs (w : Wave) (r : BitVec 5) (v : U64) : (w.ss r v).runs = w.runs := by unfold Wave.ss; split <;> rfl
@[simp] theorem Wave.ss_frontier (w : Wave) (r : BitVec 5) (v : U64) : (w.ss r v).frontier = w.frontier := by unfold Wave.ss; split <;> rfl
@[simp] theorem Wave.ss_serialVp (w : Wave) (r : BitVec 5) (v : U64) : (w.ss r v).serialVp = w.serialVp := by unfold Wave.ss; split <;> rfl
@[simp] theorem Wave.ss_vq (w : Wave) (r : BitVec 5) (v : U64) : (w.ss r v).vq = w.vq := by unfold Wave.ss; split <;> rfl
@[simp] theorem Wave.ss_fetches (w : Wave) (r : BitVec 5) (v : U64) : (w.ss r v).fetches = w.fetches := by unfold Wave.ss; split <;> rfl
@[simp] theorem Wave.ss_mat (w : Wave) (r : BitVec 5) (v : U64) : (w.ss r v).mat = w.mat := by unfold Wave.ss; split <;> rfl
@[simp] theorem Wave.ss_markers (w : Wave) (r : BitVec 5) (v : U64) : (w.ss r v).markers = w.markers := by unfold Wave.ss; split <;> rfl
@[simp] theorem Wave.ss_offers (w : Wave) (r : BitVec 5) (v : U64) : (w.ss r v).offers = w.offers := by unfold Wave.ss; split <;> rfl
@[simp] theorem Wave.ss_cmdb (w : Wave) (r : BitVec 5) (v : U64) : (w.ss r v).cmdb = w.cmdb := by unfold Wave.ss; split <;> rfl
@[simp] theorem Wave.ss_tiles (w : Wave) (r : BitVec 5) (v : U64) : (w.ss r v).tiles = w.tiles := by unfold Wave.ss; split <;> rfl
@[simp] theorem Wave.ss_everOwned (w : Wave) (r : BitVec 5) (v : U64) : (w.ss r v).everOwned = w.everOwned := by unfold Wave.ss; split <;> rfl
@[simp] theorem Wave.ss_wantsMat (w : Wave) (r : BitVec 5) (v : U64) : (w.ss r v).wantsMat = w.wantsMat := by unfold Wave.ss; split <;> rfl
@[simp] theorem Wave.ss_mepi (w : Wave) (r : BitVec 5) (v : U64) : (w.ss r v).mepi = w.mepi := by unfold Wave.ss; split <;> rfl
@[simp] theorem Wave.ss_loads (w : Wave) (r : BitVec 5) (v : U64) : (w.ss r v).loads = w.loads := by unfold Wave.ss; split <;> rfl
@[simp] theorem Wave.ss_vland (w : Wave) (r : BitVec 5) (v : U64) : (w.ss r v).vland = w.vland := by unfold Wave.ss; split <;> rfl
@[simp] theorem Wave.ss_reqs (w : Wave) (r : BitVec 5) (v : U64) : (w.ss r v).reqs = w.reqs := by unfold Wave.ss; split <;> rfl
@[simp] theorem Wave.ss_replies (w : Wave) (r : BitVec 5) (v : U64) : (w.ss r v).replies = w.replies := by unfold Wave.ss; split <;> rfl
@[simp] theorem Wave.ss_wait (w : Wave) (r : BitVec 5) (v : U64) : (w.ss r v).wait = w.wait := by unfold Wave.ss; split <;> rfl
@[simp] theorem Wave.ss_fence (w : Wave) (r : BitVec 5) (v : U64) : (w.ss r v).fence = w.fence := by unfold Wave.ss; split <;> rfl
@[simp] theorem Wave.ss_stallLong (w : Wave) (r : BitVec 5) (v : U64) : (w.ss r v).stallLong = w.stallLong := by unfold Wave.ss; split <;> rfl
@[simp] theorem Wave.ss_traps (w : Wave) (r : BitVec 5) (v : U64) : (w.ss r v).traps = w.traps := by unfold Wave.ss; split <;> rfl
@[simp] theorem Wave.ss_badRows (w : Wave) (r : BitVec 5) (v : U64) : (w.ss r v).badRows = w.badRows := by unfold Wave.ss; split <;> rfl
@[simp] theorem Wave.ss_want (w : Wave) (r : BitVec 5) (v : U64) : (w.ss r v).want = w.want := by unfold Wave.ss; split <;> rfl
@[simp] theorem Wave.ss_segNeed (w : Wave) (r : BitVec 5) (v : U64) : (w.ss r v).segNeed = w.segNeed := by unfold Wave.ss; split <;> rfl
@[simp] theorem Wave.ss_spillBad (w : Wave) (r : BitVec 5) (v : U64) : (w.ss r v).spillBad = w.spillBad := by unfold Wave.ss; split <;> rfl
@[simp] theorem Wave.ss_saveFault (w : Wave) (r : BitVec 5) (v : U64) : (w.ss r v).saveFault = w.saveFault := by unfold Wave.ss; split <;> rfl
@[simp] theorem Wave.ss_leaving (w : Wave) (r : BitVec 5) (v : U64) : (w.ss r v).leaving = w.leaving := by unfold Wave.ss; split <;> rfl
@[simp] theorem Wave.ss_savePc (w : Wave) (r : BitVec 5) (v : U64) : (w.ss r v).savePc = w.savePc := by unfold Wave.ss; split <;> rfl
@[simp] theorem Wave.ss_doubleCause (w : Wave) (r : BitVec 5) (v : U64) : (w.ss r v).doubleCause = w.doubleCause := by unfold Wave.ss; split <;> rfl
@[simp] theorem Wave.ss_recCause (w : Wave) (r : BitVec 5) (v : U64) : (w.ss r v).recCause = w.recCause := by unfold Wave.ss; split <;> rfl

end Sys2Proof.Machine
end

