-- ==== Sys2Proof/Laws/Issue.lean ====
section
/-! SUPPORT. Once for each shared operation of instructions, what it can do: issue in the control thread, an entry of the vector
queue that takes effect, an issue step of a lane, and a row without encoding. -/

namespace Sys2Proof.Machine

/-! ### Issue in the control thread -/

/-- An instruction whose checks pass and that waits for nothing acts on the charged state. -/
theorem issueControl_of_issues {i : Instr} {g : Gate} {s : State} (body : State → Out) (h : issues i g s = true) :
    issueControl i g s body = body (charged g s) := by
  simp only [issues, Bool.and_eq_true, beq_iff_eq, Option.isNone_iff_eq_none] at h
  obtain ⟨⟨⟨⟨⟨⟨h1, h2⟩, h3⟩, h4⟩, h5⟩, h6⟩, h7⟩ := h
  simp [issueControl, h1, h2, h3, h4, h5, h6, h7]

/-- An instruction that has issued and waits goes on where it waits. -/
theorem issueControl_of_waiting {i : Instr} {g : Gate} {s : State} {p : Nat} (body : State → Out) (ha : s.agent = .control)
    (h : s.w.wait = some (.issued i p)) : issueControl i g s body = body s := by
  simp [issueControl, ha, h]

/-- A trap of checks 1 to 5 is taken at the instruction, which has no other effect. -/
theorem issueControl_of_trap {i : Instr} {g : Gate} {s : State} {c : BitVec 8} (body : State → Out) (ha : s.agent = .control)
    (hw : s.w.wait = none) (h : gateTrap i g s = some c) : issueControl i g s body = .next (trapHere s c) := by
  simp [issueControl, ha, hw, h]

/-- Everything that issue in the control thread can do. -/
theorem issueControl_cases (i : Instr) (g : Gate) (s : State) (body : State → Out) :
    issueControl i g s body = laneRefuses i s ∨
    (∃ p, s.w.wait = some (.issued i p) ∧ issueControl i g s body = body s) ∨
    (issueControl i g s body = .next s) ∨
    (∃ c, gateTrap i g s = some c ∧ issueControl i g s body = .next (trapHere s c)) ∨
    (∃ t, g.await s = some t ∧ issueControl i g s body = .next (stalled .fetch t)) ∨
    (∃ why, gateStall g s = some why ∧ issueControl i g s body = .next (stalled why s)) ∨
    (∃ c, gateShort g s = some c ∧ issueControl i g s body = .next (exhausted s c)) ∨
    (∃ t, awaitWalks 0 g.vas s = some t ∧ issueControl i g s body = .next (stalled .walk t)) ∨
    (gateTrap i g s = none ∧ gateStall g s = none ∧ gateShort g s = none ∧ issueControl i g s body = body (charged g s)) := by
  unfold issueControl
  split
  · exact .inl rfl
  · split
    · rename_i j p hw
      split
      · rename_i hj
        subst hj
        exact .inr (.inl ⟨p, hw, rfl⟩)
      · exact .inr (.inr (.inl rfl))
    · split
      · rename_i c hc
        exact .inr (.inr (.inr (.inl ⟨c, hc, rfl⟩)))
      · rename_i hc
        split
        · rename_i t ht
          exact .inr (.inr (.inr (.inr (.inl ⟨t, ht, rfl⟩))))
        · split
          · rename_i why hs
            exact .inr (.inr (.inr (.inr (.inr (.inl ⟨why, hs, rfl⟩)))))
          · rename_i hs
            split
            · rename_i c hb
              exact .inr (.inr (.inr (.inr (.inr (.inr (.inl ⟨c, hb, rfl⟩))))))
            · rename_i hb
              split
              · rename_i t ht
                exact .inr (.inr (.inr (.inr (.inr (.inr (.inr (.inl ⟨t, ht, rfl⟩)))))))
              · exact .inr (.inr (.inr (.inr (.inr (.inr (.inr (.inr ⟨hc, hs, hb, rfl⟩)))))))

/-! ### The register pool -/

/-- Where the segments are there, a wave spills nothing of its own. -/
theorem selfSpill_of_room {s : State} {n : Nat} (hn : n ≠ 0) (h : canAlloc s n = true) (k : Nat) : selfSpill s n k = s := by
  have h' : s.w.hold + n ≤ s.w.cfg.quota := by
    simp only [canAlloc, Bool.and_eq_true, Bool.or_eq_true, beq_iff_eq, decide_eq_true_eq] at h
    exact h.2.resolve_left hn
  cases k with
  | zero => rfl
  | succ k => unfold selfSpill; simp [h']

/-- Where the segments are there, making room changes nothing. -/
theorem makeRoom_of_room {s : State} {n : Nat} (h : canAlloc s n = true) : makeRoom s n = s := by
  unfold makeRoom
  split
  · rfl
  · rename_i hn
    exact selfSpill_of_room hn h 65

/-! ### Entries of the vector queue -/

/-- An entry whose checks and waits pass acts, its reads of released registers marked. -/
theorem runEntry_of_passes {g : QGate} {s : State} (body : State → State) (h : g.passes s = true) :
    runEntry g body s = body (readMark s g.reads) := by
  simp only [QGate.passes, Bool.and_eq_true, beq_iff_eq, Bool.not_eq_true', Option.isNone_iff_eq_none] at h
  obtain ⟨⟨⟨⟨h1, h2⟩, h3⟩, h4⟩, h5⟩ := h
  have hr : canAlloc s (g.segs s.w) = true := by
    simp only [QGate.stalls, Bool.or_eq_false_iff, Bool.not_eq_false'] at h2
    exact h2.2
  simp [runEntry, h1, makeRoom_of_room hr, h2, h3, h4, h5]

/-- Everything that an entry can do: it traps at its early checks, waits for its registers, waits for its walks, traps at its reads or
addresses, or acts; where a wait or a later trap comes first, only the wave's own registers may have been spilled. -/
theorem runEntry_cases (g : QGate) (body : State → State) (s : State) :
    let s0 := if (g.refills s.w).isEmpty then makeRoom s (g.segs s.w) else s
    (∃ t, g.cause = some t ∧ runEntry g body s = queueTrap s t) ∨
    (g.stalls s0 = true ∧ runEntry g body s = s0.mapW (fun w => { w with
        want := (w.want ++ g.refills w).eraseDups
        segNeed := max w.segNeed (if poolHas s0 (g.segs w) then 0 else g.segs w) })) ∨
    (∃ t, awaitWalks 1 g.vas s0 = some t ∧ runEntry g body s = t) ∨
    (∃ t, (readTrap s0 g = some t ∨ g.late s0 = some t) ∧ runEntry g body s = queueTrap s0 t) ∨
    (runEntry g body s = body (readMark s0 g.reads)) := by
  intro s0
  have key : runEntry g body s =
      (match g.cause with
       | some t => queueTrap s t
       | none =>
         if g.stalls s0 then
           s0.mapW (fun w => { w with
             want := (w.want ++ g.refills w).eraseDups
             segNeed := max w.segNeed (if poolHas s0 (g.segs w) then 0 else g.segs w) })
         else
           match awaitWalks 1 g.vas s0 with
           | some t => t
           | none =>
             match readTrap s0 g with
             | some t => queueTrap s0 t
             | none =>
               match g.late s0 with
               | some t => queueTrap s0 t
               | none => body (readMark s0 g.reads)) := rfl
  rw [key]
  clear_value s0
  split
  · rename_i t ht
    exact .inl ⟨t, ht, rfl⟩
  · split
    · rename_i hs
      exact .inr (.inl ⟨hs, rfl⟩)
    · split
      · rename_i t ht
        exact .inr (.inr (.inl ⟨t, ht, rfl⟩))
      · split
        · rename_i t ht
          exact .inr (.inr (.inr (.inl ⟨t, .inl ht, rfl⟩)))
        · split
          · rename_i t ht
            exact .inr (.inr (.inr (.inl ⟨t, .inr ht, rfl⟩)))
          · exact .inr (.inr (.inr (.inr rfl)))

/-! ### Issue steps of a lane -/

/-- The step of a lane whose checks and waits pass makes no room, acts and commits; `n` is 1 where a redundant comparison has
been resolved (R59). -/
theorem runIssue_of_ready {i : Instr} {g : BGate} {s : State} {x : Issue} (body : Issue → State → State)
    (h : stepReady i g s x = true) :
    runIssue i g s x body =
      commitIssue (popAll (body x (readFlags (if dualCase s x = 1 then dualReport s x true else s) x g)) x g) x g.allDead
        (stepsCounted s x g.cross) (freshReads s x g) := by
  simp only [stepReady, Bool.and_eq_true, beq_iff_eq, Bool.not_eq_true', decide_eq_true_eq, Option.isNone_iff_eq_none] at h
  obtain ⟨⟨⟨⟨⟨⟨h1, h2⟩, hw⟩, h3⟩, h4⟩, h5⟩, h6⟩ := h
  have hr : canAlloc s (segsNeeded s g) = true := by
    simp only [blockStalls, Bool.or_eq_false_iff, Bool.not_eq_false'] at h2
    exact h2.1.1.1.1.2
  have hs : stepRoom s x g g.useQueue = s := by
    unfold stepRoom
    split
    · exact makeRoom_of_room hr
    · rfl
  have h6' : ¬ 2 ≤ dualCase s x := by omega
  simp [runIssue, h1, hs, h2, hw, h3, h4, h5, h6']

/-- A block word in a lane is the issue step of that lane. -/
theorem issueBlock_of_lane {i : Instr} {g : State → Issue → BGate} {s : State} {x : Issue} (body : Issue → State → State) {r : Nat}
    {l : List Nat} (ha : s.agent = .lane r l) (h : currentIssue s = some x) :
    issueBlock i g s body = .next (runIssue i (g s x) s x body) := by
  simp [issueBlock, ha, h]

/-! ### Rows without encoding -/

/-- An event whose condition holds has its effect. -/
theorem event_of_enabled {n : String} {p : State → Bool} {f : State → State} {s : State} (h : p s = true) :
    event n p f s = .next (f s) := by
  simp [event, h]

/-- An event answers a next state only where its condition holds, and then its effect. -/
theorem event_next {n : String} {p : State → Bool} {f : State → State} {s t : State} (h : event n p f s = .next t) :
    p s = true ∧ t = f s := by
  unfold event at h
  split at h
  · rename_i hp
    injection h with h
    exact ⟨hp, h.symm⟩
  · cases h

end Sys2Proof.Machine
end

