-- ==== Sys2Proof/Laws/Entries.lean ====
section
/-! SUPPORT. What an entry of the vector queue that takes effect does: the shared operations of every entry, each said once. -/

namespace Sys2Proof.Machine

open Sys2Proof.Spec

/-! ### Walks and held entries (R135, R166) -/

/-- No address missed, nothing awaited. -/
theorem awaitWalks_none {s : State} {l : List Nat} (a : Nat) (h : Translated s l) : awaitWalks a l s = none := by
  have : l.filter (misses s) = [] := by
    rw [List.filter_eq_nil_iff]
    exact fun v hv => by simp [h v hv]
  simp [awaitWalks, this]

/-- An agent with no walk leaves nothing to settle. -/
theorem settleWalks_id {s : State} {a : Nat} (h : NoWalk s a) : settleWalks a s = s := by
  have : s.myCluster.misses.any (fun m => m.done.isSome && m.waiters.contains (s.w.id, a)) = false := by
    rw [List.any_eq_false]
    intro m hm
    have := h m hm
    simp [this]
  unfold settleWalks dropWalks
  split
  · rfl
  · simp only [this, Bool.false_eq_true, if_false]

/-- Outside a continuation that holds entries back the whole queue counts. -/
theorem vqNow_all {w : Wave} (h : w.heldBack = false) : w.vqNow = w.vq := by simp [Wave.vqNow, h]

theorem fetchesNow_all {w : Wave} (h : w.heldBack = false) : w.fetchesNow = w.fetches := by simp [Wave.fetchesNow, h]

theorem dropEntry_all {w : Wave} (h : w.heldBack = false) : w.dropEntry = { w with vq := w.vq.drop 1 } := by simp [Wave.dropEntry, h]

/-- Budgets do not tell whether entries are held back. -/
theorem heldBack_refund (w : Wave) (t m : Nat) : (w.refund t m).heldBack = w.heldBack := rfl

/-- The oldest entry takes effect as its instruction. -/
theorem entry_runs {i : Instr} {e : QEntry} {s : State} (h : AtHead i e s) :
    exec .vectorQueueEntryEffect s = .next (settleWalks 1 (queueEffect i e s)) := by
  obtain ⟨hm, hf, ⟨l, hq⟩, hi, ho, hb, -⟩ := h
  have hh : queueHead s = some (i, e) := by
    unfold queueHead
    simp [vqNow_all hb, fetchesNow_all hb, hf, hq, ho, hi]
  simp only [exec, execVectorQueueEntryEffect, event, hm, hh]
  rfl

/-- The queue moves only outside handler mode. -/
theorem queueMoves_inh {s : State} (h : queueMoves s = true) : s.w.trp.inh = false := by
  simp only [queueMoves, Bool.and_eq_true, Bool.not_eq_true'] at h
  exact h.1.1.1.1.1.1.1.1.1.1.1.2

theorem atHead_inh {i : Instr} {e : QEntry} {s : State} (h : AtHead i e s) : s.w.trp.inh = false := queueMoves_inh h.1

/-- The oldest entry gone and its bound exchanged for a charge, with every field in sight. -/
theorem popEntry_eq {s : State} {e : QEntry} {l : List QEntry} (hq : s.w.vq = e :: l) (hi : s.w.trp.inh = false) (hb : s.w.heldBack = false)
    (t m : Nat) :
    popEntry s t m = { s with w := { s.w with
      vq := l
      bud := { s.w.bud with ibgt := s.w.bud.ibgt + BitVec.ofNat 64 e.rsvT - BitVec.ofNat 64 t
                            mbgt := s.w.bud.mbgt + BitVec.ofNat 64 e.rsvS - BitVec.ofNat 64 m } } } := by
  simp only [popEntry, vqNow_all hb, hq, State.mapW, State.setW, dropEntry_all (show (s.w.refund e.rsvT e.rsvS).heldBack = false from hb)]
  simp [Wave.deduct, Wave.refund, hi, hq]

/-- No segment is wanted. -/
theorem canAlloc_zero (s : State) : canAlloc s 0 = true := by simp [canAlloc, poolHas]

/-- Without matrix work in flight every register is free of it. -/
theorem matFree_idle {s : State} (h : s.w.mat = []) (l : List Nat) : matFree s l = true := by
  simp [matFree, matRegs, h]

/-- No register of an empty list holds an error. -/
theorem badElem_nil (w : Wave) (l : List Nat) : w.badElem [] l = none := by
  unfold Wave.badElem
  induction l with
  | nil => rfl
  | cons a t ih => simp [List.findSome?]

/-- A register without errors in a list of elements reports none. -/
theorem badElem_clean {w : Wave} {r : Nat} {l : List Nat} (h : ∀ i ∈ l, i ∉ (w.reg r).bad) : w.badElem [r] l = none := by
  unfold Wave.badElem
  induction l with
  | nil => rfl
  | cons a t ih =>
    have ha : (w.reg r).bad.contains a = false := by simpa using h a (by simp)
    simp only [List.findSome?, List.find?, ha, Bool.and_false, Option.map_none]
    exact ih (fun i hi => h i (by simp [hi]))

/-- An entry that reads and writes no register passes where it need not wait for matrix work. -/
theorem passes_plain {s : State} {wait : Bool} (h : wait = true → s.w.mat = []) : ({ waitMat := wait } : QGate).passes s = true := by
  have hs : ({ waitMat := wait } : QGate).segs s.w = 0 := by simp [QGate.segs]
  have hm : matFree s [] = true := by simp [matFree]
  have hw : awaitWalks 1 [] s = none := awaitWalks_none 1 (fun _ h => absurd h (by simp))
  have hl : s.w.landingIn [] = false := by simp [Wave.landingIn]
  cases wait with
  | false => simp [QGate.passes, QGate.stalls, QGate.refills, hs, hm, hw, hl, canAlloc_zero, readTrap, badElem_nil]
  | true => simp [QGate.passes, QGate.stalls, QGate.refills, hs, hm, hw, hl, canAlloc_zero, readTrap, badElem_nil, h rfl]

/-- Registers that an entry reads, none of them, leave no mark. -/
theorem readMark_nil (s : State) : readMark s [] = s := by simp [readMark, State.mapW, State.setW]

/-- An entry that traps at its own checks. -/
theorem runEntry_of_cause {g : QGate} {s : State} (body : State → State) {t : BitVec 8 × Nat × U64} (h : g.cause = some t) :
    runEntry g body s = queueTrap s t := by simp [runEntry, h]

end Sys2Proof.Machine
end

