-- ==== Sys2Proof/Laws/Memory.lean ====
section
/-! SUPPORT. Memory and the sparse tables: a read after a write, and that every operation keeps the canonical form. -/

namespace Sys2Proof.Machine

/-! ### Sparse tables -/

theorem spWf_mono {α : Type} [DecidableEq α] (d : α) (l : List (Nat × α)) {lo lo' : Nat} (h : lo' ≤ lo) (hw : spWf d lo l = true) :
    spWf d lo' l = true := by
  cases l with
  | nil => rfl
  | cons e t =>
    obtain ⟨k, v⟩ := e
    simp only [spWf, Bool.and_eq_true, decide_eq_true_eq] at hw ⊢
    exact ⟨⟨Nat.le_trans h hw.1.1, hw.1.2⟩, hw.2⟩

theorem spGet_below {α : Type} [DecidableEq α] (d : α) (l : List (Nat × α)) {lo k : Nat} (h : k < lo) (hw : spWf d lo l = true) :
    spGet d l k = d := by
  cases l with
  | nil => rfl
  | cons e t =>
    obtain ⟨k', v⟩ := e
    simp only [spWf, Bool.and_eq_true, decide_eq_true_eq] at hw
    have h1 : ¬ k = k' := by omega
    have h2 : k < k' := by omega
    simp [spGet, h1, h2]

/-- A table keeps its canonical form when a key is set. -/
theorem spSet_wf {α : Type} [DecidableEq α] (d : α) (l : List (Nat × α)) (lo k : Nat) (v : α) (hlo : lo ≤ k)
    (hw : spWf d lo l = true) : spWf d lo (spSet d l k v) = true := by
  induction l generalizing lo with
  | nil => simp only [spSet]; split <;> simp_all [spWf]
  | cons e t ih =>
    obtain ⟨k', v'⟩ := e
    simp only [spWf, Bool.and_eq_true, decide_eq_true_eq] at hw
    obtain ⟨⟨h1, h2⟩, h3⟩ := hw
    simp only [spSet]
    split
    · split
      · simp_all [spWf]
      · rename_i hk hv
        simp only [spWf, Bool.and_eq_true, decide_eq_true_eq]
        exact ⟨⟨hlo, by simpa using hv⟩, ⟨by omega, h2⟩, h3⟩
    · split
      · split
        · exact spWf_mono d t (by omega) h3
        · rename_i hk hv
          simp only [spWf, Bool.and_eq_true, decide_eq_true_eq]
          exact ⟨⟨hlo, by simpa using hv⟩, by subst_vars; exact h3⟩
      · simp only [spWf, Bool.and_eq_true, decide_eq_true_eq]
        exact ⟨⟨h1, h2⟩, ih (k' + 1) (by omega) h3⟩

/-- A key set to the value that it has changes nothing. -/
theorem spSet_spGet {α : Type} [DecidableEq α] (d : α) (l : List (Nat × α)) (lo k : Nat) (hw : spWf d lo l = true) :
    spSet d l k (spGet d l k) = l := by
  induction l generalizing lo with
  | nil => simp [spSet, spGet]
  | cons e t ih =>
    obtain ⟨k', v'⟩ := e
    simp only [spWf, Bool.and_eq_true, decide_eq_true_eq, Bool.not_eq_true', decide_eq_false_iff_not] at hw
    rcases Nat.lt_trichotomy k k' with h | h | h
    · have h1 : ¬ k = k' := by omega
      simp [spSet, spGet, h, h1]
    · subst h
      simp [spSet, spGet, hw.1.2]
    · have h1 : ¬ k = k' := by omega
      have h2 : ¬ k < k' := by omega
      simp [spSet, spGet, h1, h2, ih _ hw.2]

/-- The key that was set reads as the value it was set to. -/
theorem spGet_spSet_same {α : Type} [DecidableEq α] (d : α) (l : List (Nat × α)) (lo k : Nat) (v : α) (hw : spWf d lo l = true) :
    spGet d (spSet d l k v) k = v := by
  induction l generalizing lo with
  | nil => simp only [spSet]; split <;> simp_all [spGet]
  | cons e t ih =>
    obtain ⟨k', v'⟩ := e
    simp only [spWf, Bool.and_eq_true, decide_eq_true_eq] at hw
    obtain ⟨⟨h1, h2⟩, h3⟩ := hw
    simp only [spSet]
    split
    · rename_i hk
      split
      · have : ¬ k = k' := by omega
        simp_all [spGet]
      · simp [spGet]
    · rename_i hk
      split
      · rename_i hk2
        subst hk2
        split
        · rename_i hv; subst hv; exact spGet_below v t (Nat.lt_succ_self k) h3
        · simp [spGet]
      · rename_i hk2
        have : ¬ k < k' := hk
        simp only [spGet, hk2, this, if_false]
        exact ih (k' + 1) h3

/-- Every other key reads as before. -/
theorem spGet_spSet_other {α : Type} [DecidableEq α] (d : α) (l : List (Nat × α)) (lo k j : Nat) (v : α) (h : j ≠ k)
    (hw : spWf d lo l = true) : spGet d (spSet d l k v) j = spGet d l j := by
  induction l generalizing lo with
  | nil => simp only [spSet]; split <;> simp_all [spGet]
  | cons e t ih =>
    obtain ⟨k', v'⟩ := e
    simp only [spWf, Bool.and_eq_true, decide_eq_true_eq] at hw
    obtain ⟨⟨h1, h2⟩, h3⟩ := hw
    simp only [spSet]
    split
    · rename_i hk
      split
      · rfl
      · simp only [spGet, h, if_false]
        split
        · rename_i hj
          have a : ¬ j = k' := by omega
          have b : j < k' := by omega
          simp [a, b]
        · rfl
    · rename_i hk
      split
      · rename_i hk2
        subst hk2
        split
        · simp only [spGet, h, if_false]
          split
          · rename_i hj; exact spGet_below d t (by omega) h3
          · rfl
        · simp [spGet, h]
      · simp only [spGet]
        split
        · rfl
        · split
          · rfl
          · exact ih (k' + 1) h3

/-! ### Package memory -/

/-- A byte written keeps the canonical form. -/
theorem Memory.write_wf (m : List Host.Cell) (a : Nat) (b : Byte) (hw : Memory.wf m = true) : Memory.wf (Memory.write m a b) = true :=
  spSet_wf 0 m 0 a b (Nat.zero_le a) hw

theorem Memory.writeN_wf (m : List Host.Cell) (a n v : Nat) (hw : Memory.wf m = true) : Memory.wf (Memory.writeN m a n v) = true := by
  induction n generalizing m a v with
  | zero => exact hw
  | succ n ih => exact ih _ _ _ (Memory.write_wf m a _ hw)

theorem Memory.writeBytes_wf (m : List Host.Cell) (a : Nat) (l : List Byte) (hw : Memory.wf m = true) :
    Memory.wf (Memory.writeBytes m a l) = true := by
  induction l generalizing m a with
  | nil => exact hw
  | cons b t ih => exact ih _ _ (Memory.write_wf m a b hw)

/-- Cells removed keep the canonical form. -/
theorem spWf_filter {α : Type} [DecidableEq α] (d : α) (p : Nat × α → Bool) (l : List (Nat × α)) (lo : Nat) (hw : spWf d lo l = true) :
    spWf d lo (l.filter p) = true := by
  induction l generalizing lo with
  | nil => rfl
  | cons e t ih =>
    obtain ⟨k, v⟩ := e
    simp only [spWf, Bool.and_eq_true, decide_eq_true_eq] at hw
    simp only [List.filter]
    split
    · simp only [spWf, Bool.and_eq_true, decide_eq_true_eq]; exact ⟨hw.1, ih _ hw.2⟩
    · exact spWf_mono d _ (by omega) (ih _ hw.2)

theorem Memory.clear_wf (m : List Host.Cell) (lo n : Nat) (hw : Memory.wf m = true) : Memory.wf (Memory.clear m lo n) = true :=
  spWf_filter 0 _ m 0 hw

theorem Memory.read_write_same (m : List Host.Cell) (a : Nat) (b : Byte) (hw : Memory.wf m = true) :
    Memory.read (Memory.write m a b) a = b := spGet_spSet_same 0 m 0 a b hw

theorem Memory.read_write_other (m : List Host.Cell) (a c : Nat) (b : Byte) (h : c ≠ a) (hw : Memory.wf m = true) :
    Memory.read (Memory.write m a b) c = Memory.read m c := spGet_spSet_other 0 m 0 a c b h hw

/-- A write of `n` bytes leaves every byte outside them alone. -/
theorem Memory.read_writeN_outside (m : List Host.Cell) (a n v c : Nat) (h : c < a ∨ a + n ≤ c) (hw : Memory.wf m = true) :
    Memory.read (Memory.writeN m a n v) c = Memory.read m c := by
  induction n generalizing m a v with
  | zero => rfl
  | succ n ih =>
    simp only [Memory.writeN]
    rw [ih _ _ _ (by omega) (Memory.write_wf m a _ hw), Memory.read_write_other m a c _ (by omega) hw]

/-- The bytes written read back as the value, cut to their size. -/
theorem Memory.readN_writeN (m : List Host.Cell) (a n v : Nat) (hw : Memory.wf m = true) :
    Memory.readN (Memory.writeN m a n v) a n = v % 256 ^ n := by
  induction n generalizing m a v with
  | zero => simp [Memory.readN, Nat.mod_one]
  | succ n ih =>
    simp only [Memory.readN, Memory.writeN]
    rw [ih _ _ _ (Memory.write_wf m a _ hw),
      Memory.read_writeN_outside _ _ _ _ a (by omega) (Memory.write_wf m a _ hw), Memory.read_write_same m a _ hw]
    have h : v % 256 ^ (n + 1) = v % 256 + 256 * (v / 256 % 256 ^ n) := by
      rw [Nat.pow_succ', Nat.mod_mul]
    rw [h, BitVec.toNat_ofNat]

end Sys2Proof.Machine
end

