-- ==== Sys2Proof/Laws/Ready.lean ====
section
/-! SUPPORT. What the terms of Safety give in the model's own: an instruction that issues acts on the charged state; scalar registers
after a write; the budgets after a charge; integers in both spellings. -/

namespace Sys2Proof.Machine

open Sys2Proof.Spec

/-! ### Issue -/

/-- The conditions of Safety under which an instruction issues are those of the model. -/
theorem issues_of_Issues {i : Instr} {g : Gate} {s : State} (h : Issues i g s) : issues i g s = true := by
  obtain ⟨h1, h2, h3, h4, h5, h6, h7, h8, h9, h10, h11, h12, h13, h14, h15⟩ := h
  have a : gateTrap i g s = none := by
    unfold gateTrap
    simp only [h3, h6]
    by_cases hi : s.w.trp.inh = true
    · obtain ⟨q1, q2⟩ := h4 hi
      by_cases ho : g.own = true
      · simp [q1, q2, h5, ho, h7 ho]
      · simp [q1, q2, h5, ho]
    · by_cases ho : g.own = true
      · simp [hi, h5, ho, h7 ho]
      · simp [hi, h5, ho]
  have f : (s.w.fence.isSome && (g.touches || !(s.w.trp.inh || s.w.ctl.incont))) = false := by
    by_cases q : s.w.fence.isSome = true
    · obtain ⟨x, y⟩ := h12 q
      rcases y with y | y <;> simp [x, y]
    · simp [q]
  have d : g.deps.find? s.w.outstanding = none := by
    rw [List.find?_eq_none]
    exact fun r hr => by simp [h8 r hr]
  have q : (g.queue && decide (32 ≤ s.w.queued)) = false := by
    by_cases q : g.queue = true
    · have := h9 q
      simp only [Bool.and_eq_false_imp, decide_eq_false_iff_not]
      intro _
      omega
    · simp [q]
  have b : gateStall g s = none := by
    unfold gateStall
    simp only [f, d, q, h13, Bool.false_eq_true, if_false]
    split
    · rfl
    · rename_i c hc
      rcases h10 c hc with h | h <;> simp [h]
  have c : gateShort g s = none := by
    unfold gateShort
    rcases h11 with h | ⟨x, y⟩
    · simp [h]
    · simp [x, y]
  simp [issues, h1, h2, a, b, c, h14, awaitWalks_none 0 h15]

/-- An instruction that issues acts on the charged state. -/
theorem issueControl_of_Issues {i : Instr} {g : Gate} {s : State} (body : State → Out) (h : Issues i g s) :
    issueControl i g s body = body (charged g s) := issueControl_of_issues body (issues_of_Issues h)

/-- An instruction that waits goes on where it waits. -/
theorem issueControl_of_Waits {i : Instr} {g : Gate} {p : Nat} {s : State} (body : State → Out) (h : Waits i p s) :
    issueControl i g s body = body s := issueControl_of_waiting body h.1 h.2

/-! ### Scalar registers and budgets -/

/-- A charge leaves the scalar registers. -/
@[simp] theorem charged_gs (g : Gate) (s : State) (r : BitVec 5) : (charged g s).w.gs r = s.w.gs r := by simp [Wave.gs]

/-- A scalar register after a write; s0 reads zero (R25). -/
theorem gs_ss (w : Wave) (d r : BitVec 5) (v : U64) : (w.ss d v).gs r = if r = d ∧ d ≠ 0 then v else w.gs r := by
  unfold Wave.ss Wave.gs
  by_cases hd : d = 0
  · subst hd
    by_cases hr : r = 0 <;> simp [hr]
  · by_cases hr : r = 0
    · subst hr
      have : ¬ (0 : BitVec 5) = d := fun h => hd h.symm
      rw [if_pos rfl, if_pos rfl, if_neg (fun q => this q.1)]
    · by_cases e : r = d
      · subst e
        simp only [hd, if_false, ne_eq, not_false_eq_true, and_self, if_true]
        exact Vector.getElem_set_self ..
      · have : d.toNat ≠ r.toNat := fun h => e (BitVec.eq_of_toNat_eq h).symm
        simp only [hd, hr, e, if_false, false_and]
        exact Vector.getElem_set_ne _ _ this

/-- The budgets after a charge (R125, R239). -/
theorem deduct_bud (w : Wave) (t m : Nat) : (w.deduct t m).bud =
    if w.trp.inh then w.bud else { w.bud with ibgt := w.bud.ibgt - BitVec.ofNat 64 t, mbgt := w.bud.mbgt - BitVec.ofNat 64 m } := by
  unfold Wave.deduct
  split <;> simp [*]

/-- A write of a scalar register changes only the scalar registers. -/
theorem ss_eta (w : Wave) (d : BitVec 5) (v : U64) : w.ss d v = { w with s := (w.ss d v).s } := by
  unfold Wave.ss
  split <;> rfl

/-- A charge changes only the budgets. -/
theorem deduct_eta (w : Wave) (t m : Nat) : w.deduct t m = { w with bud := (w.deduct t m).bud } := by
  unfold Wave.deduct
  split <;> rfl

/-- Budgets as charged. -/
theorem charged_Charged (g : Gate) (s : State) : Charged s (charged g s) g.ticks g.sectors := by simp [Charged, deduct_bud]

/-- A scalar register written on the charged state. -/
theorem writes_setS_charged (g : Gate) (s : State) (d : BitVec 5) (v : U64) : Writes s (setS (charged g s) d v) d v := by
  intro r
  have h := gs_ss (charged g s).w d r v
  rw [charged_gs] at h
  simpa using h

/-- A scalar result of the control thread. -/
theorem scalarResult_of {i : Instr} {g : Gate} {d : BitVec 5} {v : U64} {s : State} (hg : g.ticks = 1) (hs : g.sectors = 0)
    (h : exec i s = .next (advance (setS (charged g s) d v))) : ScalarResult i d v s := by
  refine ⟨_, h, ?_, by simp, by simp, by simp [Charged, deduct_bud, hg, hs], ?_, fun _ => rfl⟩
  · intro r
    exact writes_setS_charged g s d v r
  · simp only [advance, setS, charged, State.mapW, State.setW]
    rw [ss_eta, deduct_eta]

/-- A control transfer of the control thread. -/
theorem goesTo_of {i : Instr} {g : Gate} {a : U64} {s : State} (hg : g.ticks = 1) (hs : g.sectors = 0)
    (h : exec i s = .next (jumpTo (charged g s) a)) : GoesTo i a s := by
  refine ⟨_, h, by simp, by simp, by simp, by simp [Charged, deduct_bud, hg, hs], ?_, fun _ => rfl⟩
  simp only [jumpTo, charged, State.mapW, State.setW]
  rw [deduct_eta]

/-- The charged state, written out. -/
theorem charged_eq (g : Gate) (s : State) : charged g s = { s with w := { s.w with bud := (s.w.deduct g.ticks g.sectors).bud, wait := none } } := by
  simp only [charged, State.mapW, State.setW]
  simp

/-- The budgets after a charge, as a value (R125, R239). -/
def Wave.paid (w : Wave) (t m : Nat) : Budget :=
  if w.trp.inh then w.bud else { w.bud with ibgt := w.bud.ibgt - BitVec.ofNat 64 t, mbgt := w.bud.mbgt - BitVec.ofNat 64 m }

/-- The charged state with every field in sight. -/
def State.paid (s : State) (t m : Nat) : State := { s with w := { s.w with bud := s.w.paid t m, wait := none } }

theorem charged_paid (g : Gate) (s : State) : charged g s = s.paid g.ticks g.sectors := by
  rw [charged_eq, deduct_bud]
  rfl

/-- An instruction that issues acts on the state with its charge paid. -/
theorem issue_run {i : Instr} {g : Gate} {s : State} {body : State → Out} (h : Issues i g s)
    (he : exec i s = issueControl i g s body) : exec i s = body (s.paid g.ticks g.sectors) := by
  rw [he, issueControl_of_Issues body h, charged_paid]

/-- A scalar register written after a charge. -/
theorem writes_paid (s : State) (t m : Nat) (d : BitVec 5) (v : U64) : Writes s (setS (s.paid t m) d v) d v := by
  intro r
  exact gs_ss (s.paid t m).w d r v

/-- A scalar register written changes only the scalar registers. -/
theorem setS_eq (s : State) (d : BitVec 5) (v : U64) : setS s d v = { s with w := { s.w with s := (s.w.ss d v).s } } :=
  congrArg (fun w => ({ s with w := w } : State)) (ss_eta s.w d v)

/-- What an instruction that enters the queue takes for its bound (R191). -/
theorem books_bookTokens (g : Gate) (s : State) (f : Wave → Wave) (ha : (f s.w).asid = s.w.asid) (hp : (f s.w).place = s.w.place) :
    Books s (bookTokens g (s.mapW f)) g.cls g.sectors := by
  have hd : (f s.w).die = s.w.die := by simp [Wave.die, hp]
  have hl : (f s.w).cl = s.w.cl := by simp [Wave.cl, hp]
  have hk : (s.mapW f).myCluster = s.myCluster := by simp [State.myCluster, State.cluster, hd, hl]
  unfold Books bookTokens
  cases g.cls with
  | none => exact ⟨fun _ => rfl, nofun⟩
  | some c =>
    unfold spendTokens
    refine ⟨nofun, fun k hc => ?_⟩
    cases hc
    refine ⟨fun h => by simp only [← h, if_true, State.mapW_clusters], fun hw => ?_⟩
    by_cases hn : g.sectors = 0
    · simp only [hn, if_true, hk, State.mapW_clusters]
      exact ⟨fun _ => trivial, fun _ _ b => by simp, trivial, fun d e _ => by simp [State.cluster]⟩
    · have mine : ((s.mapW f).setMyCluster (s.myCluster.takeTokens s.w.asid c g.sectors)).myCluster =
          s.myCluster.takeTokens s.w.asid c g.sectors := by
        simp only [State.myCluster, State.cluster, State.setMyCluster_clusters, State.setMyCluster_w, State.mapW_w, State.mapW_clusters, hd, hl]
        exact spGet_spSet_same _ _ 0 _ _ hw
      simp only [hn, if_false, hk, State.mapW_w, ha, mine]
      refine ⟨fun h => ?_, fun hv h b => ?_, ?_, fun x y h => ?_⟩
      · have : s.myCluster.takeTokens s.w.asid c g.sectors = s.myCluster := by simp only [Cluster.takeTokens, h, if_true]
        rw [this]
        simp only [State.setMyCluster_clusters, State.mapW_clusters, State.mapW_w, hd, hl]
        exact spSet_spGet _ _ 0 _ hw
      · simp only [Cluster.takeTokens, h, if_false]
        by_cases hb : b = tokKey s.w.asid c
        · subst hb
          rw [spGet_spSet_same _ _ 0 _ _ hv]
          simp
          omega
        · rw [spGet_spSet_other _ _ 0 _ _ _ hb hv]
          simp [hb]
      · unfold Cluster.takeTokens
        split <;> rfl
      · simp only [State.cluster, State.setMyCluster_clusters, State.mapW_clusters, State.mapW_w, hd, hl]
        exact spGet_spSet_other _ _ 0 _ _ _ h hw

/-- An entry of the vector queue. -/
theorem entersQueue_of {i : Instr} {g : Gate} {x y z : U64} {s : State} (hi : s.w.trp.inh = false)
    (h : exec i s = enqueueNext i g x y z (charged g s)) : EntersQueue i (wordOf i) g.ticks g.sectors x y z s g.cls := by
  have e : enqueueNext i g x y z (charged g s) = .next (advance (enqueue (bookTokens g (charged g s))
      { word := wordOf i, pc := s.w.pc, x := x, y := y, z := z, rsvT := g.ticks, rsvS := g.sectors })) := by
    simp [enqueueNext, hi]
  have hw : ∀ u : State, (bookTokens g u).w = u.w ∧ bookTokens g u = { u with clusters := (bookTokens g u).clusters } := by
    intro u
    unfold bookTokens
    split
    · exact ⟨rfl, rfl⟩
    · unfold spendTokens
      split <;> exact ⟨rfl, rfl⟩
  have hb : Books s (bookTokens g (charged g s)) g.cls g.sectors := books_bookTokens g s _ (by simp) (by simp)
  refine ⟨_, h.trans e, by simp [(hw _).1], by simp, by simp [Charged, (hw _).1, deduct_bud], hb, ?_, ?_⟩
  · rw [(hw _).2, charged_eq]
    rfl
  · intro a
    rw [(hw _).2]
    rfl

/-! ### The queue wait (R50, R354) -/

/-- What a continuation holds back is all there is, or there is nothing. -/
theorem nowEmpty_iff {α : Type} (b : Bool) (p : α → Bool) (l : List α) :
    (if b then l.filter (fun e => !p e) else l).isEmpty = true ↔ ∀ e ∈ l, b = true ∧ p e = true := by
  cases b with
  | true => simp [List.filter_eq_nil_iff]
  | false =>
    cases l with
    | nil => simp
    | cons a t =>
      simp only [Bool.false_eq_true, if_false, List.isEmpty_cons, false_and, false_iff]
      exact fun h => h a (by simp)

theorem settled_iff (s : State) : s.w.settled = true ↔ Settled s ∨ s.w.trp.inh = true := by
  have a := nowEmpty_iff s.w.heldBack (fun e : QEntry => e.before) s.w.vq
  have b := nowEmpty_iff s.w.heldBack (fun f : Fetch => f.before) s.w.fetches
  simp only [Wave.settled, Wave.vqNow, Wave.fetchesNow, Bool.or_eq_true, Bool.and_eq_true, Settled, QueueEmpty, a, b]
  constructor
  · rintro (h | ⟨⟨x, y⟩, z⟩)
    · exact .inr h
    · exact .inl ⟨⟨x, y⟩, z⟩
  · rintro (⟨⟨x, y⟩, z⟩ | h)
    · exact .inr ⟨⟨x, y⟩, z⟩
    · exact .inl h

theorem settled_of {s : State} (h : Settled s ∨ s.w.trp.inh = true) : s.w.settled = true := (settled_iff s).2 h

theorem not_settled_of {s : State} (h : ¬ Settled s) (hi : s.w.trp.inh = false) : s.w.settled = false := by
  cases hh : s.w.settled
  · rfl
  · rcases (settled_iff s).1 hh with x | x
    · exact absurd x h
    · simp [hi] at x

/-! ### Branch targets -/

/-- The target of a branch in both spellings (R285). -/
theorem branchTo_target {n : Nat} (pc : U64) (o : BitVec n) (hn : n ≤ 60) : branchTo pc (o.signExtend 64) = target pc o.toInt := by
  have e : (o.signExtend 64).toInt = o.toInt := BitVec.toInt_signExtend_of_le (by omega)
  have h0 : (o.signExtend 64) = BitVec.ofInt 64 o.toInt := by rw [← e, BitVec.ofInt_toInt]
  unfold branchTo target
  rw [h0]
  congr 1
  have : (pc + 4 * BitVec.ofInt 64 o.toInt) = BitVec.ofInt 64 ((pc.toNat : Int) + 4 * o.toInt) := by
    rw [BitVec.ofInt_add, BitVec.ofInt_mul]
    simp
  rw [this, BitVec.toNat_ofInt]
  generalize (pc.toNat : Int) + 4 * o.toInt = z
  omega

/-! ### Integers -/

/-- A doubleword read as signed. -/
theorem sval_toNat (x : U64) : sval 64 x.toNat = x.toInt := by
  have := x.isLt
  unfold sval bits
  rw [BitVec.toInt_eq_toNat_cond]
  split <;> split <;> omega

/-- An integer stored in a doubleword. -/
theorem ofNat_uval (x : Int) : BitVec.ofNat 64 (uval 64 x) = BitVec.ofInt 64 x := by
  apply BitVec.eq_of_toNat_eq
  simp only [uval, BitVec.toNat_ofNat, BitVec.toNat_ofInt]
  have : 0 ≤ x % 18446744073709551616 := Int.emod_nonneg _ (by decide)
  omega

end Sys2Proof.Machine
end

