-- ==== Sys2Proof/Laws/Registers.lean ====
section
/-! SUPPORT. Vector registers: what a write, a release and the landing of an element leave in every register and element. -/

namespace Sys2Proof.Machine

open Sys2Proof.Spec

/-! ### Registers of a wave -/

/-- The table of registers in its canonical form. -/
abbrev Wave.regsWf (w : Wave) : Prop := spWf ({} : VReg) 0 w.vregs = true

theorem reg_setReg (w : Wave) (v r : Nat) (x : VReg) (h : w.regsWf) : (w.setReg v x).reg r = if r = v then x else w.reg r := by
  unfold Wave.reg Wave.setReg
  split
  · subst r; exact spGet_spSet_same _ _ 0 _ _ h
  · exact spGet_spSet_other _ _ 0 _ _ _ ‹_› h

theorem regsWf_setReg (w : Wave) (v : Nat) (x : VReg) (h : w.regsWf) : (w.setReg v x).regsWf := spSet_wf _ _ 0 _ _ (Nat.zero_le _) h

theorem regsWf_releaseAll (l : List Nat) : ∀ w : Wave, w.regsWf → (w.releaseAll l).regsWf := by
  induction l with
  | nil => exact fun _ h => h
  | cons v t ih => exact fun w h => ih _ (regsWf_setReg (w.dropDst v) v {} h)

/-- Released registers read as released; the others stay. -/
theorem reg_releaseAll (l : List Nat) : ∀ (w : Wave) (r : Nat), w.regsWf → (w.releaseAll l).reg r = if r ∈ l then {} else w.reg r := by
  induction l with
  | nil => intro w r _; simp [Wave.releaseAll]
  | cons v t ih =>
    intro w r h
    rw [Wave.releaseAll, Wave.release, ih _ _ (regsWf_setReg (w.dropDst v) v {} h), reg_setReg (w.dropDst v) v r {} h]
    by_cases h1 : r ∈ t
    · simp [h1]
    · by_cases h2 : r = v
      · simp [h2]
      · simp only [h1, h2, List.mem_cons, or_self, if_false]; rfl

/-- Releases change the registers, and where elements on their way land. -/
theorem releaseAll_eq (l : List Nat) : ∀ w : Wave, w.releaseAll l =
    { w with vregs := (w.releaseAll l).vregs, vland := (w.releaseAll l).vland, reqs := (w.releaseAll l).reqs, replies := (w.releaseAll l).replies } := by
  induction l with
  | nil => exact fun _ => rfl
  | cons v t ih => intro w; rw [Wave.releaseAll, ih]; rfl

/-! ### Elements -/

/-- The first of a list of written elements with a number: the value that stays is the last one written. -/
def lastOf : List (Nat × U64) → Nat → Option U64
  | [], _ => none
  | (i, x) :: t, k => match lastOf t k with
    | some y => some y
    | none => if k = i then some x else none

theorem spWf_putElems (ew : Nat) (xs : List (Nat × U64)) : ∀ l : List (Nat × U64), spWf (0 : U64) 0 l = true →
    spWf (0 : U64) 0 (putElems ew l xs) = true := by
  induction xs with
  | nil => exact fun _ h => h
  | cons e t ih => exact fun l h => ih _ (spSet_wf _ _ 0 _ _ (Nat.zero_le _) h)

theorem spGet_putElems (ew : Nat) (xs : List (Nat × U64)) : ∀ (l : List (Nat × U64)) (k : Nat), spWf (0 : U64) 0 l = true →
    spGet (0 : U64) (putElems ew l xs) k = (match lastOf xs k with
      | some x => BitVec.ofNat 64 (x.toNat % 2 ^ ew)
      | none => spGet 0 l k) := by
  induction xs with
  | nil => intro l k _; rfl
  | cons e t ih =>
    intro l k h
    obtain ⟨i, x⟩ := e
    rw [putElems, ih _ _ (spSet_wf _ _ 0 _ _ (Nat.zero_le _) h), lastOf]
    cases lastOf t k with
    | some y => rfl
    | none =>
      by_cases hk : k = i
      · subst hk; simp only [if_true]; exact spGet_spSet_same _ _ 0 _ _ h
      · simp only [hk, if_false]; exact spGet_spSet_other _ _ 0 _ _ _ hk h

/-- Entries of a table below a bound read as before; at or above it as unlisted. -/
theorem spGet_filter_lt {α : Type} [DecidableEq α] (d : α) (l : List (Nat × α)) (n k : Nat) :
    ∀ lo, spWf d lo l = true → spGet d (l.filter (fun e => decide (e.1 < n))) k = if k < n then spGet d l k else d := by
  induction l with
  | nil => intro lo _; simp [spGet]
  | cons e t ih =>
    intro lo h
    obtain ⟨a, b⟩ := e
    simp only [spWf, Bool.and_eq_true, decide_eq_true_eq] at h
    simp only [List.filter_cons]
    by_cases han : a < n
    · simp only [han, decide_true, if_true, spGet]
      by_cases hka : k = a
      · subst hka; simp [han]
      · by_cases hlt : k < a
        · have : k < n := by omega
          simp [hka, hlt, this]
        · simp only [hka, hlt, if_false]
          exact ih _ h.2
    · simp only [han, decide_false, Bool.false_eq_true, if_false]
      rw [ih _ h.2]
      by_cases hkn : k < n
      · have h1 : k ≠ a := by omega
        have h2 : k < a := by omega
        simp only [hkn, if_true, spGet, h1, h2, if_false]
        exact spGet_below d t (by omega : k < a + 1) h.2
      · simp [hkn]

end Sys2Proof.Machine
end

