-- ==== Sys2Proof/Laws/Tables.lean ====
section
/-! SUPPORT. Partial tables: what a key reads as after keys are set and removed. -/

namespace Sys2Proof.Machine

theorem lkGet_lkSet {α : Type} (l : List (Nat × α)) (k j : Nat) (v : α) : lkGet (lkSet l k v) j = if j = k then some v else lkGet l j := by
  induction l with
  | nil => simp [lkSet, lkGet]
  | cons e t ih =>
    obtain ⟨a, b⟩ := e
    simp only [lkSet]
    split
    · simp [lkGet]
    · split
      · rename_i h1 h2; subst h2
        by_cases hj : j = k <;> simp [lkGet, hj]
      · rename_i h1 h2
        simp only [lkGet, ih]
        by_cases hj : j = a
        · have : j ≠ k := by omega
          simp [hj, show a ≠ k from by omega]
        · simp [hj]

theorem lkGet_lkDel {α : Type} (l : List (Nat × α)) (k j : Nat) : lkGet (lkDel l k) j = if j = k then none else lkGet l j := by
  unfold lkDel
  induction l with
  | nil => simp [lkGet]
  | cons e t ih =>
    obtain ⟨a, b⟩ := e
    by_cases ha : a = k
    · subst ha
      simp only [List.filter_cons, bne_self_eq_false, Bool.false_eq_true, if_false, ih, lkGet]
      by_cases hj : j = a <;> simp [hj]
    · have : (a != k) = true := by simp [ha]
      simp only [List.filter_cons, this, if_true, lkGet, ih]
      by_cases hj : j = a
      · subst hj; simp [ha]
      · simp [hj]

theorem lkGet_setAll {α : Type} (vs : List Nat) (x : α) : ∀ (l : List (Nat × α)) (j : Nat),
    lkGet (vs.foldl (fun l v => lkSet l v x) l) j = if j ∈ vs then some x else lkGet l j := by
  induction vs with
  | nil => simp
  | cons v t ih =>
    intro l j
    rw [List.foldl_cons, ih, lkGet_lkSet]
    by_cases h1 : j ∈ t
    · simp [h1]
    · by_cases h2 : j = v <;> simp [h1, h2]

theorem lkGet_delAll {α : Type} (vs : List Nat) : ∀ (l : List (Nat × α)) (j : Nat),
    lkGet (vs.foldl lkDel l) j = if j ∈ vs then none else lkGet l j := by
  induction vs with
  | nil => simp
  | cons v t ih =>
    intro l j
    rw [List.foldl_cons, ih, lkGet_lkDel]
    by_cases h1 : j ∈ t
    · simp [h1]
    · by_cases h2 : j = v <;> simp [h1, h2]

theorem lkGet_mem {α : Type} (l : List (Nat × α)) (k : Nat) (v : α) (h : lkGet l k = some v) : (k, v) ∈ l := by
  induction l with
  | nil => simp [lkGet] at h
  | cons e t ih =>
    obtain ⟨a, b⟩ := e
    simp only [lkGet] at h
    split at h
    · rename_i hk; subst hk; simp at h; simp [h]
    · simp [ih h]

end Sys2Proof.Machine
end

