-- ==== Sys2Proof/Laws/Trap.lean ====
section
/-! SUPPORT. The taking of an exception once: what the completion of blocks leaves alone, and what trap entry does. -/

namespace Sys2Proof.Machine

open Sys2Proof.Spec

/-! ### What the completion of blocks leaves alone -/

/-- The state with everything blanked that the completion of blocks can change. -/
def State.still (s : State) : State :=
  { s with w := { s.w with
    vps := [], latches := [], runs := [], frontier := [], serialVp := none, ctl := { s.w.ctl with serial := false }
    masks := Vector.replicate 8 0, vregs := [], bud := { s.w.bud with ibgt := 0, mbgt := 0 }, traps := []
    vland := [], reqs := [], replies := [] } }

/-- A wave with the same things blanked. -/
def Wave.still (w : Wave) : Wave :=
  { w with
    vps := [], latches := [], runs := [], frontier := [], serialVp := none, ctl := { w.ctl with serial := false }
    masks := Vector.replicate 8 0, vregs := [], bud := { w.bud with ibgt := 0, mbgt := 0 }, traps := []
    vland := [], reqs := [], replies := [] }

theorem still_mapW {s : State} {f : Wave → Wave} (h : (f s.w).still = s.w.still) : (s.mapW f).still = s.still := by
  unfold State.mapW State.setW State.still
  simp only [Wave.still] at h
  rw [h]

theorem still_w {s t : State} (h : t.still = s.still) : t.w.still = s.w.still := congrArg State.w h

theorem still_release (w : Wave) (v : Nat) : (w.release v).still = w.still := rfl

theorem still_releaseAll (l : List Nat) : ∀ w : Wave, (w.releaseAll l).still = w.still := by
  induction l with
  | nil => intro w; rfl
  | cons v t ih => intro w; exact (ih _).trans (still_release w v)

theorem still_setRun (w : Wave) (r : Run) : (w.setRun r).still = w.still := rfl

theorem still_setMaskBit (w : Wave) (k v : Nat) (b : Bool) : (w.setMaskBit k v b).still = w.still := by
  unfold Wave.setMaskBit
  split <;> rfl

theorem still_deduct (w : Wave) (t m : Nat) : (w.deduct t m).still = w.still := by
  unfold Wave.deduct
  split <;> rfl

theorem still_refund (w : Wave) (t m : Nat) : (w.refund t m).still = w.still := rfl

theorem still_performReleases (w : Wave) (id : Nat) : (w.performReleases id).still = w.still := by
  unfold Wave.performReleases
  split
  · rfl
  · rw [still_setRun]
    split
    · rfl
    · exact still_releaseAll _ _

theorem still_completeRun (w : Wave) (id : Nat) : (w.completeRun id).still = w.still := by
  unfold Wave.completeRun
  split
  · rfl
  · split
    · rfl
    · have h : ∀ (p : Run → Bool) (l : List Nat), ({ (w.performReleases id).releaseAll l with
          runs := ((w.performReleases id).releaseAll l).runs.filter p } : Wave).still = w.still := by
        intro p l
        exact (still_releaseAll l _).trans (still_performReleases w id)
      dsimp only
      split
      · exact h _ _
      · exact h _ _
      · rw [still_deduct, still_refund]
        exact h _ _

theorem still_raise (s : State) (t : PTrap) : (raise s t).still = s.still := rfl

theorem still_addEntry (s : State) (a : U64) : (addEntry s a).still = s.still := by
  unfold addEntry
  split
  · rfl
  · exact still_mapW rfl

theorem still_prune (w : Wave) : w.prune.still = w.still := rfl

theorem still_enterThread (s : State) (v : Nat) (a : U64) : (enterThread s v a).still = s.still := by
  have h : (s.mapW (fun w => (w.setVp v (.thread a)).prune)).still = s.still := still_mapW (still_prune _)
  unfold enterThread
  generalize s.mapW (fun w => (w.setVp v (.thread a)).prune) = x at h ⊢
  dsimp only
  split
  · exact h
  · split
    · exact (still_addEntry x a).trans h
    · exact (still_mapW rfl).trans h

theorem still_entriesFor (l : List Nat) : ∀ s : State, (entriesFor s l).still = s.still := by
  induction l with
  | nil => intro s; rfl
  | cons v t ih =>
    intro s
    unfold entriesFor
    split
    · exact (ih _).trans (still_addEntry _ _)
    · exact ih _

theorem still_settleFrontier (s : State) : (settleFrontier s).still = s.still := by
  have h : (s.mapW Wave.prune).still = s.still := still_mapW (still_prune _)
  unfold settleFrontier
  generalize s.mapW Wave.prune = x at h ⊢
  dsimp only
  split
  · exact (still_entriesFor _ _).trans ((still_mapW rfl).trans h)
  · exact h

theorem still_followTarget (s : State) (v : Nat) (a : U64) (iw : Nat) : (followTarget s v a iw).still = s.still := by
  unfold followTarget
  split
  · split
    · rfl
    · exact still_enterThread _ _ _
  · split
    · exact still_mapW (still_setMaskBit _ _ _ _)
    · rfl

theorem still_endBlock (s : State) (v : Nat) : (endBlock s v).still = s.still := by
  unfold endBlock
  split
  · dsimp only
    rw [still_settleFrontier, still_mapW]
    · split
      · rfl
      · exact (still_followTarget _ _ _ _).trans rfl
    · rw [still_completeRun, still_performReleases]
  · rfl

/-- The completion of blocks changes only what `State.still` blanks. -/
theorem still_endAll (s : State) : (endAll s).still = s.still := by
  have h : ∀ (l : List Nat) (x : State), x.still = s.still →
      (l.foldl (fun x v => if x.w.atEnd v then endBlock x v else x) x).still = s.still := by
    intro l
    induction l with
    | nil => intro x hx; exact hx
    | cons e t ih =>
      intro x hx
      refine ih _ ?_
      dsimp only
      split
      · exact (still_endBlock _ _).trans hx
      · exact hx
  exact h _ s rfl

/-- With no VP at the end of its block nothing completes. -/
theorem endAll_of_noneEnding {s : State} (h : NoneEnding s) : endAll s = s := by
  have e : (s.w.vps.map Prod.fst).filter s.w.atEnd = [] := by
    simp only [List.filter_eq_nil_iff, List.mem_map, forall_exists_index, and_imp, forall_apply_eq_imp_iff₂]
    exact fun e he => by simp [h e he]
  have : ∀ l : List Nat, (l.flatMap (fun j => ([] : List Nat).filter (fun v => s.w.laneOf v == j))) = [] := by
    intro l
    induction l with
    | nil => rfl
    | cons _ _ ih => exact ih
  unfold endAll Wave.ending Wave.laneOrder
  rw [e, this]
  rfl

/-! ### Trap entry -/

/-- Trap entry outside handler mode with a handler (R237). -/
theorem enterTrap_takes {s : State} (hc : CanTrap s) (src : Nat) (cause : BitVec 8) (iw vp : Nat) (val epc : U64) (is : List Nat) :
    TakesTrap s (enterTrap s src cause iw vp val epc is) src cause vp iw val epc := by
  obtain ⟨h1, h2⟩ := hc
  have hs : (endAll s).w.sup = s.w.sup := congrArg (fun x => x.w.sup) (still_endAll s)
  unfold enterTrap
  rw [h1]
  have : ((s.die s.w.die).trapvec == 0) = false := by simpa using h2
  rw [this]
  simp [TakesTrap, hs]

theorem eq_of_still {s t : State} (h : t.still = s.still) :
    t = { s with w := { s.w with
      vps := t.w.vps, latches := t.w.latches, runs := t.w.runs, frontier := t.w.frontier, serialVp := t.w.serialVp
      ctl := { s.w.ctl with serial := t.w.ctl.serial }, masks := t.w.masks, vregs := t.w.vregs
      bud := { s.w.bud with ibgt := t.w.bud.ibgt, mbgt := t.w.bud.mbgt }, traps := t.w.traps
      vland := t.w.vland, reqs := t.w.reqs, replies := t.w.replies } } := by
  have e : ∀ x : State, x = { x.still with w := { x.still.w with
      vps := x.w.vps, latches := x.w.latches, runs := x.w.runs, frontier := x.w.frontier, serialVp := x.w.serialVp
      ctl := { x.still.w.ctl with serial := x.w.ctl.serial }, masks := x.w.masks, vregs := x.w.vregs
      bud := { x.still.w.bud with ibgt := x.w.bud.ibgt, mbgt := x.w.bud.mbgt }, traps := x.w.traps
      vland := x.w.vland, reqs := x.w.reqs, replies := x.w.replies } } := fun _ => rfl
  refine (e t).trans ?_
  rw [h]
  rfl

/-- What trap entry leaves alone. -/
theorem enterTrap_leaves {s : State} (hc : CanTrap s) (src : Nat) (cause : BitVec 8) (iw vp : Nat) (val epc : U64) (is : List Nat) :
    TrapLeaves s (enterTrap s src cause iw vp val epc is) := by
  obtain ⟨h1, h2⟩ := hc
  have e : (s.w.trp.inh || (s.die s.w.die).trapvec == 0) = false := by simpa [h1] using h2
  have hs := eq_of_still (still_endAll s)
  unfold enterTrap
  rw [e]
  simp only [Bool.false_eq_true, if_false]
  refine ⟨?_, ?_, ?_⟩
  · intro a
    show Memory.read (endAll s).mem a = _
    rw [hs]
  · show (endAll s).w.s = s.w.s
    rw [hs]
  · unfold State.mapW State.setW
    rw [hs]

/-- The budgets at trap entry, where no block completes. -/
theorem enterTrap_bud {s : State} (hc : CanTrap s) (hn : NoneEnding s) (src : Nat) (cause : BitVec 8) (iw vp : Nat) (val epc : U64)
    (is : List Nat) : (enterTrap s src cause iw vp val epc is).w.bud = s.w.bud := by
  obtain ⟨h1, h2⟩ := hc
  have e : (s.w.trp.inh || (s.die s.w.die).trapvec == 0) = false := by simpa [h1] using h2
  unfold enterTrap
  rw [e, endAll_of_noneEnding hn]
  rfl

/-- A trap taken after a charge of `t` ticks and `m` sectors. -/
theorem enterTrap_paid {s : State} (hc : CanTrap s) (t m src : Nat) (cause : BitVec 8) (iw vp : Nat) (val epc : U64) (is : List Nat) :
    let r := enterTrap (s.paid t m) src cause iw vp val epc is
    TakesTrap s r src cause vp iw val epc ∧ TrapLeaves s r ∧ (NoneEnding s → Charged s r t m) := by
  intro r
  refine ⟨enterTrap_takes (s := s.paid t m) hc .., ?_, ?_⟩
  · obtain ⟨a, b, c⟩ := enterTrap_leaves (s := s.paid t m) hc src cause iw vp val epc is
    refine ⟨a, b, c.trans ?_⟩
    have : (s.paid t m).w.bud = { s.w.bud with ibgt := (s.paid t m).w.bud.ibgt, mbgt := (s.paid t m).w.bud.mbgt } := by
      simp only [State.paid, Wave.paid]
      split <;> rfl
    rw [this]
    rfl
  · intro hn
    exact enterTrap_bud (s := s.paid t m) hc hn ..

/-- A trap of the checks of an instruction of the control thread. -/
theorem trapsAt_of {i : Instr} {c : BitVec 8} {val : U64} {s : State} (hc : CanTrap s) (h : exec i s = .next (trapAt s c val)) :
    TrapsAt i c val s :=
  ⟨_, h, enterTrap_takes hc .., enterTrap_leaves hc .., fun hn => enterTrap_bud hc hn ..⟩

end Sys2Proof.Machine
end

