-- ==== Sys2Proof/Tests/Slice0.lean ====
section
/-! SUPPORT. The model's own tests: for every statement a state that meets its hypotheses, the words of the opcode table and of the spec's examples
decoded, ill-formed terms refused, and single steps with results from the spec's examples. -/

namespace Sys2Proof.Tests

open Sys2Proof.Machine Sys2Proof.Spec

set_option Elab.async false

/-! ### Small states -/

/-- A supervisor wave of role ALL at 0x10_0000 with nothing in flight, one lane, NREG 32, EW 32, VL 16, a page table that maps the first
512 MiB onto themselves and the next without any right, and both translations in its cluster's cache. -/
def s0 : State :=
  let s := State.reset.withFetchWord 32 0x30000000
  { s with agenda := [], mem := Memory.writeN s.mem 0x206008 8 0x20000003
           clusters := [(0, { s.myCluster with tlb := s.myCluster.tlb ++ [⟨0, 1, 29, 0x20000003⟩] })] }

/-- The same machine with the wave changed. -/
def sw (f : Wave → Wave) : State := { s0 with w := f s0.w }

/-- With scalar registers 1, 2, ... set. -/
def regs (l : List (BitVec 5 × U64)) (w : Wave) : Wave := l.foldl (fun w e => w.ss e.1 e.2) w

/-- In handler mode. -/
def inHandler (w : Wave) : Wave := { w with trp := { w.trp with inh := true } }

/-- The wave owns its cluster's matrix unit. -/
def owned (s : State) : State := s.setMyCluster { s.myCluster with owner := some s.w.id, tileOf := some s.w.id }

/-- With one entry in the vector queue. -/
def queued (i : Instr) (f : QEntry → QEntry) (w : Wave) : Wave := { w with vq := [f { word := wordOf i, pc := w.pc }] }

/-! ### The conditions of statements as tests -/

/-- `Issues` as a test. -/
def issuesB (i : Instr) (g : Gate) (s : State) : Bool :=
  decide (s.agent = .control) && decide (s.w.wait = none) && !reservedCode i && (!s.w.trp.inh || (!g.queue && !g.noHandler)) &&
    decide (s.w.hdr.role s.w.member ∈ g.roles) && !g.privBad && (!g.own || decide (s.myCluster.owner = some s.w.id)) &&
    g.deps.all (fun r => !s.w.outstanding r) && (!g.queue || decide (s.w.queued < 32)) &&
    (match g.cls with | none => true | some c => decide (g.sectors = 0) || s.myCluster.hasToken s.w.asid c) &&
    (s.w.trp.inh || (s.w.fitsT g.ticks && s.w.fitsS g.sectors)) &&
    (!s.w.fence.isSome || (!g.touches && (s.w.trp.inh || s.w.ctl.incont))) && !g.full && (g.await s).isNone && g.vas.all (fun va => !misses s va)

theorem issues_of {i : Instr} {g : Gate} {s : State} (h : issuesB i g s = true) : Issues i g s := by
  simp only [issuesB, Bool.and_eq_true, Bool.or_eq_true, Bool.not_eq_true', decide_eq_true_eq] at h
  obtain ⟨⟨⟨⟨⟨⟨⟨⟨⟨⟨⟨⟨⟨⟨h1, h2⟩, h3⟩, h4⟩, h5⟩, h6⟩, h7⟩, h8⟩, h9⟩, h10⟩, h11⟩, h12⟩, h13⟩, h14⟩, h15⟩ := h
  refine ⟨h1, h2, h3, fun h => ?_, h5, h6, fun h => ?_, fun r hr => ?_, fun h => ?_, fun c hc => ?_, h11, fun h => ?_, h13,
    Option.isNone_iff_eq_none.1 h14, fun va hva => ?_⟩
  · rcases h4 with e | e
    · rw [h] at e; cases e
    · exact e
  · rcases h7 with e | e
    · rw [h] at e; cases e
    · exact e
  · have := List.all_eq_true.1 h8 r hr; simpa using this
  · rcases h9 with e | e
    · rw [h] at e; cases e
    · exact e
  · rw [hc] at h10; simpa using h10
  · rcases h12 with e | e
    · rw [h] at e; cases e
    · exact e
  · have := List.all_eq_true.1 h15 va hva; simpa using this

theorem canTrap_of {s : State} (h : (!s.w.trp.inh && decide ((s.die s.w.die).trapvec ≠ 0)) = true) : CanTrap s := by
  simp only [Bool.and_eq_true, Bool.not_eq_true', decide_eq_true_eq] at h; exact h

theorem atInstruction_of {s : State} (h : (decide (s.agent = .control) && decide (s.w.wait = none)) = true) : AtInstruction s := by
  simp only [Bool.and_eq_true, decide_eq_true_eq] at h; exact h

theorem canonical_of {s : State} (h : (spWf ({} : Cluster) 0 s.clusters && spWf ({} : Die) 0 s.dies && spWf ({} : Team) 0 s.teams &&
    Memory.wf s.mem) = true) : Canonical s := by
  simp only [Bool.and_eq_true] at h; exact ⟨h.1.1.1, h.1.1.2, h.1.2, h.2⟩

theorem settled_of {s : State} (h : (s.w.vq.all (fun e => s.w.heldBack && e.before) && s.w.fetches.all (fun f => s.w.heldBack && f.before) &&
    s.w.quiescent) = true) : Settled s := by
  simp only [Bool.and_eq_true, List.all_eq_true] at h; exact ⟨⟨h.1.1, h.1.2⟩, h.2⟩

theorem not_settled_of {s : State} {e : QEntry} {l : List QEntry} (h : s.w.vq = e :: l) (hb : e.before = false) : ¬ Settled s := by
  intro hs
  have := (hs.1.1 e (by simp [h])).2
  rw [hb] at this; cases this

theorem nothingOpen_of {s : State} (h : (decide (s.w.loads = []) && decide (s.w.vland = []) && decide (s.w.reqs = []) && decide (s.w.mat = []) &&
    s.clusters.all (fun e => e.2.bulk.all (fun b => decide (b.wave ≠ s.w.id))) && s.wdq.all (fun q => decide (q.wave ≠ s.w.id))) = true) :
    NothingOpen s := by
  simp only [Bool.and_eq_true, decide_eq_true_eq, List.all_eq_true] at h
  exact ⟨h.1.1.1.1.1, h.1.1.1.1.2, h.1.1.1.2, h.1.1.2, h.1.2, h.2⟩

theorem translated_of {s : State} {l : List Nat} (h : l.all (fun va => !misses s va) = true) : Translated s l := by
  intro va hva
  have := List.all_eq_true.1 h va hva; simpa using this

theorem translated_congr {s t : State} {l : List Nat} (hc : t.clusters = s.clusters) (hi : t.w.id = s.w.id) (ha : t.w.asid = s.w.asid)
    (hp : t.w.place = s.w.place) (h : Translated s l) : Translated t l := by
  intro va hva
  have := h va hva
  simp only [misses, delivered, State.myCluster, State.cluster, Wave.die, Wave.cl, hc, hi, ha, hp] at *
  exact this

theorem onDuty_of {s : State} (h : (s.running s.w.die && s.w.isResident) = true) : OnDuty s := by
  simp only [Bool.and_eq_true] at h; exact h

theorem ok_of {α β : Type} [DecidableEq β] {e : Except α β} {b : β} (h : (match e with | .ok x => decide (x = b) | .error _ => false) = true) :
    e = .ok b := by
  cases e with
  | ok x => simp only [decide_eq_true_eq] at h; rw [h]
  | error _ => cases h

theorem exists_ok {α β : Type} {e : Except α β} (h : (match e with | .ok _ => true | .error _ => false) = true) : ∃ x, e = .ok x := by
  cases e with
  | ok x => exact ⟨x, rfl⟩
  | error _ => cases h

theorem error_of {α β : Type} [DecidableEq α] {e : Except α β} {a : α}
    (h : (match e with | .ok _ => false | .error x => decide (x = a)) = true) : e = .error a := by
  cases e with
  | ok _ => cases h
  | error x => simp only [decide_eq_true_eq] at h; rw [h]

/-! ### Hypotheses of the statements are met -/

/-- ScalarResults: at s0 and s31 as registers, and an amount of 64 and more to shift by. -/
theorem witness_ScalarResults : Issues (.add 0 1 31) { deps := [0, 1, 31] } s0 ∧ Issues (.divs 31 1 2) { deps := [31, 1, 2] } s0 ∧
    Issues (.sari 1 1 64) { deps := [1, 1] } s0 ∧ Issues (.clz 0 31) { deps := [0, 31] } s0 ∧
    Issues (.li 31 (BitVec.allOnes 19)) { deps := [31] } s0 ∧ Issues (.lis 0 0) { deps := [0] } s0 :=
  ⟨issues_of (by decide), issues_of (by decide), issues_of (by decide), issues_of (by decide), issues_of (by decide), issues_of (by decide)⟩

theorem witness_BranchesAndJumps : Issues .nop {} s0 ∧ Issues (.br 0x800000) {} s0 ∧ Issues (.bc 6 1 2 0x400) { deps := [1, 2] } s0 ∧
    Condition 0 (s0.w.gs 1) (s0.w.gs 2) ∧ ¬ Condition 6 (s0.w.gs 1) (s0.w.gs 2) ∧ Issues (.call 0) { deps := [31] } s0 ∧
    Issues (.jr 31 31) { deps := [31, 31] } s0 ∧ (s0.w.gs 31).toNat % 4 = 0 ∧
    (let s := sw (regs [(31, 2)]); Issues (.jr 31 31) { deps := [31, 31] } s ∧ (s.w.gs 31).toNat % 4 ≠ 0 ∧ CanTrap s) := by
  refine ⟨issues_of (by decide), issues_of (by decide), issues_of (by decide), ?_, ?_, issues_of (by decide), issues_of (by decide),
    by decide, issues_of (by decide), by decide, canTrap_of (by decide)⟩
  · exact ⟨fun _ => by decide, fun h => absurd h (by decide), fun h => absurd h (by decide), fun h => absurd h (by decide),
      fun h => absurd h (by decide), fun h => absurd h (by decide), fun h => absurd h (by decide)⟩
  · intro h; exact absurd (h.2.2.2.2.2.2 rfl) (by decide)

/-- The mask branches: settled, with no bit below VL set, all set, and the bit at VL set only; and with an entry still queued. -/
theorem witness_MaskBranches : Settled s0 ∧ Issues (.brany 0 0x100000) { noHandler := true } s0 ∧
    (¬ ∃ i, i < s0.w.cfg.vl ∧ (s0.w.masks[0]).getLsbD i = true) ∧
    (let s := sw (fun w => { w with masks := Vector.replicate 8 0xFFFF })
     Settled s ∧ Issues (.brall 7 0) { noHandler := true } s ∧ ∀ i, i < s.w.cfg.vl → (s.w.masks[7]).getLsbD i = true) ∧
    (let s := sw (fun w => { w with masks := Vector.replicate 8 0x10000 })
     Settled s ∧ Issues (.brnone 1 0) { noHandler := true } s ∧ ¬ ∃ i, i < s.w.cfg.vl ∧ (s.w.masks[1]).getLsbD i = true) ∧
    (let s := sw (queued (.vsetcfg 0 0 0) id); ¬ Settled s ∧ s.w.trp.inh = false ∧ Issues (.brany 0 0) { noHandler := true } s) := by
  refine ⟨settled_of (by decide +kernel), issues_of (by decide +kernel), by decide +kernel, ⟨settled_of (by decide +kernel), issues_of (by decide +kernel), by decide +kernel⟩,
    ⟨settled_of (by decide +kernel), issues_of (by decide +kernel), by decide +kernel⟩, not_settled_of rfl rfl, rfl, issues_of (by decide +kernel)⟩

/-- A user wave. -/
def s0u : State := sw (fun w => { w with sup := false })

/-- A block of one word in lockstep on the 16 VPs, its first issue step under way for the VPs listed. -/
def lane (w : BitVec 32) (vps : List Nat) : State :=
  { s0 with w := fetchWave.startRun .lockstep 0x200 0x47040000 [w] (List.range 16) (reservation [w] 16), agent := .lane 0 vps }

theorem witness_SoftwareTrapsAndReturn : Issues (.trapS 0xFFFFFF) {} s0 ∧ CanTrap s0 ∧ NoneEnding s0 ∧ Issues (.dbgbrk 0) {} s0 ∧
    s0.w.dbg.ena = false ∧ (let s := sw (fun w => { w with dbg := { w.dbg with ena := true } }); Issues (.dbgbrk 0) {} s ∧ s.w.dbg.ena = true) ∧
    (let s := sw inHandler; Issues .eret { privBad := !s.w.trp.inh } s ∧ s.w.trp.src ≠ 2 ∧ s.w.ctl.incont = false ∧ s.w.bud.preempt = false) ∧
    (let s := sw (fun w => { w with trp := { w.trp with inh := true, src := 2, rskip := true }, vq := [{ word := 0, pc := 0 }] })
     Issues .eret { privBad := !s.w.trp.inh } s ∧ s.w.trp.src = 2 ∧ s.w.trp.rskip = true ∧ s.w.fetches = []) :=
  ⟨issues_of (by decide), canTrap_of (by decide), fun e he => (List.not_mem_nil he).elim, issues_of (by decide), rfl,
    ⟨issues_of (by decide), rfl⟩, ⟨issues_of (by decide), by decide, rfl, rfl⟩, issues_of (by decide), rfl, rfl, rfl⟩

/-- A reserved size of LD, a reserved scope of FENCE, a reserved register number of CRWR, and an unused bit of VLD; a header word, a word of
the block class in the control thread at each end of its opcodes, and a scalar word in a block. -/
theorem witness_ReservedCodesAndPlacement : AtInstruction s0 ∧ CanTrap s0 ∧ reservedCode (.ld 1 2 3 1 0) = true ∧
    reservedCode (.fence 5 0) = true ∧ reservedCode (.crwr 1 0x00A) = true ∧ ¬ IndexNamed (.vld 0 1 2 31 1 0 0) ∧ IndexNamed (.vld 0 1 2 32 1 0 0) ∧
    (∀ i ∈ [Instr.abegin 0 0 0 0, .thfetch 0 0, .vpstop 0, .vaddI 0 0 0 0 0, .vcvt 0 0 0 0 0 1, .vspawn 0 0 0 0, .repf 0 0 0],
      reservedCode i = false ∧ (encode i).isSome = true) ∧
    (∃ x, currentIssue (lane 0x01000000 [3, 4]) = some x) ∧ reservedCode (.add 0 0 0) = false ∧ encode (.add 0 0 0) = some 0x01000000 :=
  ⟨atInstruction_of (by decide), canTrap_of (by decide), rfl, rfl, rfl, by simp [IndexNamed], Or.inr (by decide), by decide +kernel,
    ⟨_, rfl⟩, rfl, rfl⟩

/-- A wave of each role that refuses something. -/
theorem witness_RolesRestrictOpcodes : (∀ k ∈ [1, 2, 3], (sw (fun w => { w with hdr := { dw1 := BitVec.ofNat 64 (k * 2 ^ 42) } })).w.hdr.role 0 = k) ∧
    (let s := sw (fun w => { w with hdr := { dw1 := BitVec.ofNat 64 (2 ^ 42) } }); AtInstruction s ∧ CanTrap s) ∧
    (∀ i ∈ [Instr.vfetch 0 0, .velect 0 0 0, .vxtake 0, .vst 0 0 0 0 0 0 0 0, .wmpub 0 0, .vld 0 0 0 0 0 0 0, .bcopy 0 0 0 0 0, .cmdb 0 0,
      .macq, .mepi 0 0 0 0 0 0 0 0], reservedCode i = false ∧ (encode i).isSome = true) :=
  ⟨by decide +kernel, ⟨atInstruction_of (by decide), canTrap_of (by decide)⟩, by decide +kernel⟩

theorem witness_PrivilegeAndOwnership : AtInstruction s0u ∧ CanTrap s0u ∧ s0u.w.sup = false ∧ assignedCr 0x800 = true ∧ assignedCr 0x820 = true ∧
    s0u.w.hdr.role s0u.w.member = 0 ∧ s0u.myCluster.owner ≠ some s0u.w.id ∧ reservedCode .mrel = false ∧ (encode .mrel).isSome = true :=
  ⟨atInstruction_of (by decide), canTrap_of (by decide), rfl, rfl, rfl, by decide, by decide, rfl, by decide +kernel⟩

theorem witness_DoubleTrap :
    let f (w : Wave) : Wave := { w with markers := [{ word := 0, pc := 0 }] }
    (let s := sw (fun w => inHandler (f w)); Issues (.trapS 7) {} s ∧ s.w.trp.inh = true ∧ s.w.inFlight = true) ∧
    (let s := { sw f with dies := [] }; Issues (.trapS 7) {} s ∧ (s.die s.w.die).trapvec = 0 ∧ s.w.inFlight = true) :=
  ⟨⟨issues_of (by decide), rfl, rfl⟩, issues_of (by decide), rfl, rfl⟩

/-- CRRD of the first and last number of each range, privileged and not, and in handler mode. -/
theorem witness_ControlRegisterReads :
    (∀ c ∈ [0x000, 0x009, 0x010, 0x015, 0x047, 0x800, 0x820], assignedCr c = true ∧
      Issues (.crrd 31 c) { deps := [31], ticks := 2, privBad := decide (0x800 ≤ c.toNat) && !s0.w.sup } s0) ∧ Settled s0 ∧
    (let s := sw (fun w => inHandler (queued (.vsetcfg 0 0 0) id w)); Issues (.crrd 0 0) { deps := [0], ticks := 2 } s ∧ s.w.trp.inh = true) ∧
    (let s := sw (queued (.vsetcfg 0 0 0) id)
     ¬ Settled s ∧ s.w.trp.inh = false ∧ Issues (.crrd 1 0x004) { deps := [1], ticks := 2 } s ∧
       Waits (.crrd 1 0x047) 0 { s with w := { s.w with wait := some (.issued (.crrd 1 0x047) 0) } }) := by
  refine ⟨fun c hc => ?_, settled_of (by decide +kernel), ⟨issues_of (by decide), rfl⟩, not_settled_of rfl rfl, rfl,
    issues_of (by decide), rfl, rfl⟩
  simp only [List.mem_cons, List.not_mem_nil, or_false] at hc
  rcases hc with rfl | rfl | rfl | rfl | rfl | rfl | rfl <;> exact ⟨rfl, issues_of (by decide)⟩

/-- CRWR of each register with a clause of its own, at the largest value of its fields and at the next. -/
theorem witness_ControlRegisterWrites :
    (∀ e ∈ [((0x003 : BitVec 12), (63 : U64)), (0x003, 64), (0x005, 3), (0x005, 4), (0x006, 0), (0x007, 7), (0x007, 8), (0x803, 0), (0x804, 0),
        (0x000, 0), (0x805, 0)],
      let s := sw (regs [(1, e.2)])
      wellFormed (.crwr 1 e.1) = true ∧ s.w.gs 1 = e.2 ∧ Settled s ∧ CanTrap s ∧
        Issues (.crwr 1 e.1) { deps := [1], ticks := 2, privBad := decide (0x800 ≤ e.1.toNat) && !s.w.sup } s) ∧
    Issues (.fflagsAccess 0 1) { deps := [1], ticks := 2 } s0 ∧ Issues (.fflagsAccess 1 1) { deps := [1], ticks := 2 } s0 := by
  refine ⟨fun e he => ?_, issues_of (by decide), issues_of (by decide)⟩
  simp only [List.mem_cons, List.not_mem_nil, or_false] at he
  rcases he with rfl | rfl | rfl | rfl | rfl | rfl | rfl | rfl | rfl | rfl | rfl <;>
    exact ⟨by decide +kernel, by decide +kernel, settled_of (by decide +kernel), canTrap_of (by decide +kernel), issues_of (by decide +kernel)⟩

theorem witness_PrivilegedRegisterWrites :
    (∀ v ∈ [(0 : U64), 15, 16, 0x0FFFFFFFFFFFFFFF, 0x1000000000000000, 2, 3],
      let s := sw (regs [(1, v)])
      Canonical s ∧ s.w.sup = true ∧ s.w.gs 1 = v ∧ CanTrap s ∧
        ∀ i ∈ [Instr.lanepwrWrite 1, .trapvecWrite 1, .tokrateWrite 1, .tokdepthWrite 1, .dbgctlWrite 1], Issues i { deps := [1], ticks := 2 } s) := by
  intro v hv
  simp only [List.mem_cons, List.not_mem_nil, or_false] at hv
  rcases hv with rfl | rfl | rfl | rfl | rfl | rfl | rfl <;>
    refine ⟨canonical_of (by decide +kernel), rfl, by decide +kernel, canTrap_of (by decide +kernel), fun i hi => ?_⟩ <;>
    simp only [List.mem_cons, List.not_mem_nil, or_false] at hi <;>
    rcases hi with rfl | rfl | rfl | rfl | rfl <;> exact issues_of (by decide +kernel)

theorem witness_ContinuationIndexAndShares : Issues (.contset 0) {} s0 ∧ (0 : BitVec 4).toNat ≤ s0.w.hdr.nent ∧
    Issues (.contset 1) {} s0 ∧ s0.w.hdr.nent < (1 : BitVec 4).toNat ∧ CanTrap s0 ∧ Issues (.psetvl 1 2) { deps := [1, 2] } s0 ∧
    (sw (fun w => { w with hdr := { dw0 := 0x8000000000000000 } })).w.hdr.pkg = true :=
  ⟨issues_of (by decide), by decide, issues_of (by decide), by decide, canTrap_of (by decide), issues_of (by decide), by decide⟩

/-- LD, ST and AMO at 0x30_0000 and at the last doubleword of the scratchpad. -/
theorem witness_ScalarAccessesAreSent :
    (let s := sw (regs [(1, 0x300000)])
     Issues (.ld 31 1 3 0 0) { deps := [31, 1], sectors := 1, cls := some 2, vas := [0x300000] } s ∧ resolve s Acc.load false 0x300000 8 = .ok (.pkg 0x300000) ∧
       s.poisonedAt (.pkg 0x300000) = false ∧ Issues (.st 0 1 3 0) { deps := [0, 1], sectors := 1, cls := some 2, vas := [0x300000] } s ∧
       resolve s Acc.store false 0x300000 8 = .ok (.pkg 0x300000) ∧
       Issues (.amo 0 1 2 9 4 3) { deps := [0, 1, 2], sectors := 1, cls := some 2, vas := [0x300000] } s ∧
       resolve s (atomicAcc 4 9) false 0x300000 8 = .ok (.pkg 0x300000)) ∧
    (let s := sw (regs [(1, 0x0FFFFF00000003F8)])
     Issues (.ld 0 1 3 0 0) { deps := [0, 1], sectors := 0, cls := some 2 } s ∧ resolve s Acc.load false 0x0FFFFF00000003F8 8 = .ok (.sp 0x3F8)) :=
  ⟨⟨issues_of (by decide +kernel), ok_of (by decide +kernel), rfl, issues_of (by decide +kernel), ok_of (by decide +kernel),
    issues_of (by decide +kernel), ok_of (by decide +kernel)⟩, issues_of (by decide +kernel), ok_of (by decide +kernel)⟩

/-- With a walk that the control thread waited for ended in a fault of its own cause (R166). -/
def walkFailed (va : Nat) (s : State) : State :=
  s.setMyCluster { s.myCluster with misses := [⟨s.w.asid, va / 2 ^ 19, 0, [(s.w.id, 0)], some (.fault 0x05)⟩] }

/-- An address for each clause: the first with bit 60, the first past the scratchpad, one misaligned at its end, the last below the
aperture, and the last aligned below it, which no table maps and whose walk has ended so. -/
theorem witness_AddressChecks :
    (∀ e ∈ [((0x1000000000000000 : U64), 1), (0x0FFFFF0000000400, 0), (0x0FFFFF00000003FF, 0), (0x0FFFFEFFFFFFFFFF, 1), (0x0FFFFEFFFFFFFFF8, 1)],
      let s := walkFailed 0x0FFFFEFFFFFFFFF8 (sw (regs [(1, e.1)]))
      CanTrap s ∧ s.w.gs 1 + (0 : BitVec 11).signExtend 64 = e.1 ∧ (if inAperture e.1.toNat then 0 else 1) = e.2 ∧
        Issues (.ld 2 1 3 0 0) { deps := [2, 1], sectors := e.2, cls := some 2, vas := walked false 8 e.1 } s ∧
        Issues (.st 2 1 3 0) { deps := [2, 1], sectors := e.2, cls := some 2, vas := walked false 8 e.1 } s) ∧ s0.myTeam.kib * 1024 = 0x400 ∧
    (let s := walkFailed 0x0FFFFEFFFFFFFFF8 s0
     translate s s.w.asid s.w.sup Acc.load 0x0FFFFEFFFFFFFFF8 = .error 0x05 ∧
       translate s s.w.asid s.w.sup Acc.store 0x0FFFFEFFFFFFFFF8 = .error 0x05) := by
  refine ⟨fun e he => ?_, by decide +kernel, error_of (by decide +kernel), error_of (by decide +kernel)⟩
  simp only [List.mem_cons, List.not_mem_nil, or_false] at he
  rcases he with rfl | rfl | rfl | rfl | rfl <;>
    exact ⟨canTrap_of (by decide +kernel), by decide +kernel, by decide +kernel, issues_of (by decide +kernel), issues_of (by decide +kernel)⟩

theorem witness_TranslationGuardsMemory : tlbLookup s0.myCluster s0.w.asid 0x1FFFFFFF = some ⟨0, 0, 29, 0x3F⟩ ∧
    translate s0 s0.w.asid false Acc.load 0x1FFFFFFF = .ok (.pkg 0x1FFFFFFF) ∧
    (let s := { s0 with clusters := [] }
     delivered s s.w.asid 0x1FFFFFFF = none ∧ tlbLookup s.myCluster s.w.asid 0x1FFFFFFF = none ∧
       translate s s.w.asid false Acc.load 0x1FFFFFFF = .ok (.pkg 0x1FFFFFFF)) :=
  ⟨by decide +kernel, ok_of (by decide +kernel), rfl, rfl, ok_of (by decide +kernel)⟩

/-- WAITADDR of a word that differs, of one that is equal, of one misaligned, and in the aperture. -/
theorem witness_WaitaddrReadsUntilChanged :
    (∀ e ∈ [((0x300000 : U64), (1 : U64)), (0x300000, 0), (0x300004, 0), (0x0FFFFF0000000000, 0)],
      let s := sw (regs [(1, e.1), (2, e.2)])
      Issues (.waitaddr 3 1 2) { deps := [3, 1, 2], mem := true, vas := walked false 8 e.1 } s ∧ NothingOpen s ∧ LinksUp s ∧ CanTrap s ∧ s.w.gs 1 = e.1 ∧ s.w.gs 2 = e.2) ∧
    translate s0 s0.w.asid s0.w.sup Acc.load 0x300000 = .ok (.pkg 0x300000) ∧ s0.poisoned 0x300000 = false ∧
    BitVec.ofNat 64 (Memory.readN s0.mem 0x300000 8) = (0 : U64) ∧ spWf ({} : Cluster) 0 s0.clusters = true := by
  refine ⟨fun e he => ?_, ok_of (by decide +kernel), rfl, by decide +kernel, rfl⟩
  simp only [List.mem_cons, List.not_mem_nil, or_false] at he
  rcases he with rfl | rfl | rfl | rfl <;>
    exact ⟨issues_of (by decide +kernel), nothingOpen_of (by decide +kernel), rfl, canTrap_of (by decide +kernel),
      by decide +kernel, by decide +kernel⟩

/-- A store of the wave, on the VEC path. -/
def storing (w : Wave) : Wave := { w with reqs := [{ sseq := 0, grp := 0, path := .vec, tgt := .pkg 0x300000, size := 8, op := .store 1 }] }

/-- A load of the wave, on the VEC path. -/
def loading (w : Wave) : Wave := { w with loads := [{ sseq := 0, path := .vec, tgt := .pkg 0x300000, size := 8, dst := .sreg 1, va := 0x300000 }] }

/-- FENCE and XFENCE with nothing open, unsettled, and with a store and a load that are not performed; each TLBINV with nothing open, with a
store on its way, and with one in the vector queue. -/
theorem witness_FencesAndTlbinv : spWf ({} : Cluster) 0 s0.clusters = true ∧ s0.w.cl < 64 ∧ Settled s0 ∧ NothingOpen s0 ∧
    Issues (.fence 2 1) { ticks := 2, mem := true } s0 ∧ Issues (.fence 4 3) { ticks := 2, mem := true } s0 ∧
    Issues (.xfence 2 1 1) { ticks := 4, mem := true } s0 ∧
    (let s := sw (queued (.vsetcfg 0 0 0) id)
     ¬ Settled s ∧ s.w.trp.inh = false ∧ Issues (.fence 0 0) { ticks := 2, mem := true } s ∧
       Issues (.xfence 0 1 1) { ticks := 4, mem := true } s) ∧
    (let s := sw storing
     Settled s ∧ s.w.reqs ≠ [] ∧ (∃ r ∈ s.w.reqs, r.path = .vec) ∧ Issues (.fence 2 0) { ticks := 2, mem := true } s ∧
       Issues (.xfence 2 1 2) { ticks := 4, mem := true } s) ∧
    (let s := sw loading
     Settled s ∧ s.w.loads ≠ [] ∧ (∀ l ∈ s.w.loads, l.linked = none) ∧ Issues (.fence 2 1) { ticks := 2, mem := true } s) ∧
    s0.w.sup = true ∧ Canonical s0 ∧ s0.w.reqs = [] ∧ s0.w.runs = [] ∧ (∀ c ∈ s0.clusters, ∀ m ∈ c.2.misses, m.done.isSome = true) ∧
    (∀ s ∈ [s0, sw storing, sw (queued (.vst 0 1 0 2 0 0 0 0) id)],
      Issues (.tlbinvPage 1 2) { deps := [1, 2], ticks := 2, mem := true } s ∧ Issues (.tlbinvAsid 2) { deps := [2], ticks := 2, mem := true } s ∧
        Issues .tlbinvAll { ticks := 2, mem := true } s) ∧
    (let s := sw (queued (.vst 0 1 0 2 0 0 0 0) id)
     s.w.trp.inh = false ∧ s.w.heldBack = false ∧ ∃ e ∈ s.w.vq, opOf e.word = 0x91) := by
  refine ⟨rfl, by decide, settled_of (by decide +kernel), nothingOpen_of (by decide +kernel), issues_of (by decide +kernel),
    issues_of (by decide +kernel), issues_of (by decide +kernel),
    ⟨not_settled_of rfl rfl, rfl, issues_of (by decide +kernel), issues_of (by decide +kernel)⟩,
    ⟨settled_of (by decide +kernel), by decide, by decide +kernel, issues_of (by decide +kernel), issues_of (by decide +kernel)⟩,
    ⟨settled_of (by decide +kernel), by decide, by decide +kernel, issues_of (by decide +kernel)⟩, rfl, canonical_of (by decide +kernel), rfl, rfl,
    by decide +kernel, fun s hs => ?_, rfl, by decide +kernel, by decide +kernel⟩
  simp only [List.mem_cons, List.not_mem_nil, or_false] at hs
  rcases hs with rfl | rfl | rfl <;> exact ⟨issues_of (by decide +kernel), issues_of (by decide +kernel), issues_of (by decide +kernel)⟩

/-- Another resident wave of the same team. -/
def mate (w : Wave) : Wave := { w with id := 2, wid := 5, stamp := 1 }

/-- The machine with the wave changed and its mate. -/
def pair (f : Wave → Wave) : State := { sw f with others := [mate s0.w] }

/-- A header of one wave, a valid one, at 0x30_0000; `n` is its TCOUNT. -/
def withHeader (n : Nat) (s : State) : State :=
  { s with mem := Memory.writeN (Memory.writeN s.mem 0x300018 8 n) 0x300030 8 0x100000001 }

/-- EXIT of a quiet wave, of one whose block runs, and with matrix work, a load, a reply, an atomic and a VSPAWN in flight. -/
theorem witness_ExitEndsTheWave : Canonical s0 ∧ Issues .exitW { ticks := 0 } s0 ∧
    (s0.w.runs = [] ∧ s0.w.offers = none ∧ s0.w.mat = [] ∧ s0.w.loads = [] ∧ s0.w.replies = [] ∧ ∀ r ∈ s0.w.reqs, r.op.isBank = false) ∧
    s0.myTeam.left ≤ 1 ∧
    (∀ f ∈ [fun w => { w with mat := [{ word := 0, pc := 0 }] }, loading,
        (fun w => { w with replies := [{ dst := .sreg 1, val := 0, size := 8 }] }),
        (fun w => { w with reqs := [{ sseq := 0, grp := 0, path := .vec, tgt := .pkg 0, size := 8, op := .bank 0 1 0 }] }),
        (fun w => { w with offers := some { md := 0, run := 0, key := 0, vps := [], list := [] } })], Canonical (sw f) ∧ Issues .exitW { ticks := 0 } (sw f)) ∧
    (let s := { lane 0x47040000 [3] with agent := .control }
     Canonical s ∧ Issues .exitW { ticks := 0 } s ∧ s.w.trp.inh = false ∧ s.w.traps = [] ∧
       (∃ v id p q g r, (v, VpSt.run id p q g false) ∈ s.w.vps ∧ s.w.run? id = some r ∧ r.stopped = false)) := by
  refine ⟨canonical_of (by decide +kernel), issues_of (by decide +kernel), ⟨rfl, rfl, rfl, rfl, rfl, fun r hr => (List.not_mem_nil hr).elim⟩,
    by decide +kernel, fun f hf => ?_, canonical_of (by decide +kernel), issues_of (by decide +kernel), rfl, rfl,
    3, 0, 0, 0, none, _, by decide +kernel, rfl, rfl⟩
  simp only [List.mem_cons, List.not_mem_nil, or_false] at hf
  rcases hf with rfl | rfl | rfl | rfl | rfl <;> exact ⟨canonical_of (by decide +kernel), issues_of (by decide +kernel)⟩

/-- YIELD to a word-aligned PC, with a save area that can be written, and to the first misaligned one. -/
theorem witness_YieldSavesTheWave :
    (let s := pair (regs [(1, 0x100000)])
     let s0 : State := { s with w := { s.w with wait := none, savePc := 0x100000
                                                bud := { s.w.bud with remT := s.w.bud.ibgt, remS := s.w.bud.mbgt } } }
     Issues (.yieldW 1) { noHandler := true, deps := [1], ticks := 0 } s ∧ (s.w.gs 1).toNat % 4 = 0 ∧ s.w.runs = [] ∧ s.w.vps = [] ∧
       NothingOpen s ∧ s.w.replies = [] ∧ s.w.markers = [] ∧ s.w.offers = none ∧ s.w.trp.inh = false ∧
       (∃ w ∈ s.others, w.team = s.w.team ∧ w.isResident = true) ∧ ∃ s1, saveContext s0 0x100000 = .ok s1) ∧
    (let s := sw (regs [(1, 0x100001)])
     Issues (.yieldW 1) { noHandler := true, deps := [1], ticks := 0 } s ∧ (s.w.gs 1).toNat % 4 ≠ 0 ∧ CanTrap s) := by
  exact ⟨⟨issues_of (by decide +kernel), by decide +kernel, rfl, rfl, nothingOpen_of (by decide +kernel), rfl, rfl,
    rfl, rfl, ⟨mate s0.w, List.mem_singleton.2 rfl, rfl, rfl⟩, exists_ok (by decide +kernel)⟩, issues_of (by decide +kernel),
    by decide +kernel, canTrap_of (by decide +kernel)⟩

theorem witness_CarvesConserveBudgets : 0 ≤ (0 : U64).toInt ∧ 0 ≤ (0x7FFFFFFFFFFFFFFF : U64).toInt := by decide

/-- SPAWN of a valid header, of a TCOUNT of 0, past the depth limit with s0 and another register as sd, and with a full queue. -/
theorem witness_SpawnQueuesALaunch :
    let waits (s : State) : State := { s with w := { s.w with wait := some (.issued (.spawn 3 1 2) 0) } }
    let a := withHeader 1 (waits (sw (regs [(1, 0x300000)])))
    let b := withHeader 0 (waits (sw (regs [(1, 0x300000)])))
    let c := withHeader 1 (waits (sw (fun w => { regs [(1, 0x300000)] w with sup := false })))
    let d := { c with w := { c.w with wait := some (.issued (.spawn 0 1 2) 0) } }
    let h : Hdr := { dw3 := 1, dw6 := 0x100000001 }
    let e := { a with dies := [(0, { trapvec := 1, tasks := List.replicate 4096 { hdr := h, arg := 0, depth := 0, limit := 0, asid := 0 } })] }
    Issues (.spawn 3 1 2) { deps := [3, 1, 2], ticks := 8, mem := true } s0 ∧
    (∀ s ∈ [a, c, e], Waits (.spawn 3 1 2) 0 s ∧ Canonical s ∧ headerReady s = true ∧ headerAt s 0x300000 = .ok (.pkg 0x300000, h)) ∧
    headerAt d 0x300000 = .ok (.pkg 0x300000, h) ∧ headerAt b 0x300000 = .ok (.pkg 0x300000, { h with dw3 := 0 }) ∧
    h.pkg = false ∧ h.inherit = false ∧ h.invalid false = false ∧ ({ h with dw3 := 0 } : Hdr).invalid false = true ∧
    c.w.sup = false ∧ c.w.limit < c.w.depth + 1 ∧ Waits (.spawn 0 1 2) 0 d ∧ CanTrap d ∧ Waits (.spawn 3 1 2) 0 b ∧
    4096 ≤ ((e.die 0).tasks.filter (fun l => l.hdr.cls == h.cls)).length := by
  intro waits a b c d h e
  refine ⟨issues_of (by decide), fun s hs => ?_, ok_of (by decide +kernel), ok_of (by decide +kernel), by decide, by decide, by decide +kernel,
    by decide +kernel, rfl, by decide, ⟨rfl, rfl⟩, canTrap_of (by decide +kernel), ⟨rfl, rfl⟩, by decide +kernel⟩
  simp only [List.mem_cons, List.not_mem_nil, or_false] at hs
  rcases hs with rfl | rfl | rfl <;>
    exact ⟨⟨rfl, rfl⟩, canonical_of (by decide +kernel), by decide +kernel, ok_of (by decide +kernel)⟩

/-- BTOPUP that finds none, two or one wave, beyond a user wave's rest and within it; BTOPUP.z of a saved and of a resident wave. -/
theorem witness_TopupCreditsTheTarget :
    let meant (s : State) (asid : BitVec 16) : List Nat :=
      (s.waves.filter (fun w => decide (w.die = s.w.die) && w.placed && !w.isGone && w.wid == s.w.gs 1 && w.asid == asid &&
        (s.w.sup || w.anc.contains s.w.id))).map Wave.id
    let waits (i : Instr) (w : Wave) : Wave := { w with wait := some (.issued i 0) }
    let one := pair (fun w => waits (.btopup 4 1 2 3) (regs [(1, 5)] w))
    let two := { one with others := [mate s0.w, { mate s0.w with id := 3 }] }
    let user := { one with w := { one.w with sup := false }, others := [{ mate s0.w with anc := [1] }] }
    let poor := { user with w := regs [(2, 0x10000000001)] user.w }
    let z := pair (fun w => waits (.btopupZ 4 1) (regs [(1, 5)] w))
    let gone := { z with others := [{ mate s0.w with place := .saved 0 0 }] }
    Issues (.btopup 4 1 2 3) { privBad := !s0.w.sup && !s0.w.hdr.topup, deps := [4, 1, 2, 3], ticks := 4 } s0 ∧
    Issues (.btopupZ 4 1) { privBad := !s0.w.sup, deps := [4, 1], ticks := 4 } s0 ∧
    meant { one with w := regs [(1, 6)] one.w } 0 = [] ∧ meant two 0 = [2, 3] ∧ meant one 0 = [2] ∧ meant user 0 = [2] ∧ user.w.sup = false ∧
    ((user.w.gs 2).toNat : Int) ≤ max user.w.bud.ibgt.toInt 0 ∧ ¬ ((poor.w.gs 2).toNat : Int) ≤ max poor.w.bud.ibgt.toInt 0 ∧
    (∀ s ∈ [one, two, user, poor], Waits (.btopup 4 1 2 3) 0 s) ∧ Waits (.btopupZ 4 1) 0 z ∧ Waits (.btopupZ 4 1) 0 gone ∧
    meant gone 0 = [2] ∧ (∀ w ∈ gone.others, w.isResident = false) ∧ meant z 0 = [2] ∧ (∀ w ∈ z.others, w.isResident = true ∧ w.id ≠ z.w.id) := by
  intro meant waits one two user poor z gone
  refine ⟨issues_of (by decide), issues_of (by decide), by decide +kernel, by decide +kernel, by decide +kernel, by decide +kernel, rfl,
    by decide +kernel, by decide +kernel, fun s hs => ?_, ⟨rfl, rfl⟩, ⟨rfl, rfl⟩, by decide +kernel, by decide +kernel, by decide +kernel,
    by decide +kernel⟩
  simp only [List.mem_cons, List.not_mem_nil, or_false] at hs
  rcases hs with rfl | rfl | rfl | rfl <;> exact ⟨rfl, rfl⟩

theorem atHead_of {i : Instr} {s : State} {e : QEntry} {l : List QEntry} (hq : s.w.vq = e :: l)
    (h : (queueMoves s && decide (s.w.fetches = []) && decide (instrOfWord e.word = i) && decide (opOf e.word ≠ 0x45) && !s.w.heldBack &&
      s.myCluster.misses.isEmpty && !matrixDelayed s e.word) = true) : AtHead i e s := by
  simp only [Bool.and_eq_true, decide_eq_true_eq, Bool.not_eq_true', List.isEmpty_iff] at h
  refine ⟨h.1.1.1.1.1.1, h.1.1.1.1.1.2, ⟨l, hq⟩, h.1.1.1.1.2, h.1.1.1.2, h.1.1.2, ?_, h.2⟩
  simp only [NoWalk, h.1.2]
  exact fun m hm => (List.not_mem_nil hm).elim

theorem regsOk_nil {w : Wave} (h : w.vregs = []) : RegsOk w := by
  have hr : ∀ v, w.reg v = {} := fun v => by simp [Wave.reg, h, spGet]
  refine ⟨by rw [h]; rfl, fun v => ?_⟩
  rw [hr v]
  exact ⟨rfl, fun x hx => (List.not_mem_nil hx).elim, fun _ => rfl⟩

/-- The entry of `queued`. -/
def entryOf (i : Instr) (w : Wave) : QEntry := { word := wordOf i, pc := w.pc }

/-- The machine with an instruction at the head of its queue. -/
def headOf (i : Instr) : State := sw (queued i id)

theorem atHead_head {i : Instr} (h : (queueMoves (headOf i) && decide (instrOfWord (wordOf i) = i) && decide (opOf (wordOf i) ≠ 0x45) &&
      !matrixDelayed (headOf i) (wordOf i)) = true) : AtHead i (entryOf i s0.w) (headOf i) := by
  simp only [Bool.and_eq_true, decide_eq_true_eq, Bool.not_eq_true'] at h
  exact ⟨h.1.1.1, rfl, ⟨[], rfl⟩, h.1.1.2, h.1.2, rfl, fun m hm => (List.not_mem_nil hm).elim, h.2⟩

/-- The queued instructions issue: those of every shape, the matrix instructions for the owner of the unit. -/
theorem witness_QueuedInstructionsEnterTheQueue :
    (∀ e ∈ [(Instr.vsetcfg 2 2 0, ({ queue := true } : Gate)), (.vsetvl 1 2 1, { queue := true, deps := [1, 2] }), (.reggive 63, { queue := true }),
        (.mop 0 1 2 3 4, { roles := [0, 3], queue := true, deps := [4], ticks := 3 }),
        (.vfetch 0 0, { roles := [0, 3], queue := true, ticks := 1 + (blockRsv s0 s0.w.pc 128).1, sectors := (blockRsv s0 s0.w.pc 128).2
                        await := awaitBlock 0 none s0.w.pc }),
        (.wmlink 7 1 2 3, { roles := [0, 3], queue := true, deps := [1, 2] }),
        (.wmpub 1 2, { roles := [0, 3], queue := true, deps := [1, 2], ticks := 2, sectors := 1, cls := some 2 }),
        (.barrive 4 1 1, { queue := true, deps := [1], ticks := 2 }), (.vld 0 1 2 31 0 0 0, vmGate [0, 2, 3] (modeOf 31) 2 31 0 0 false s0),
        (.vst 1 1 1 2 32 1 3 1, vmGate [0, 3] (modeOf 32) 2 32 3 1 false s0), (.vamo 0 1 2 0 0 0 0, vmGate [0, 3] (modeOf 0) 2 0 0 0 true s0),
        (.bkred 0 1 2 3 0 0 0, vmGate [0, 3] (.index 3) 2 3 0 0 true s0)], Issues e.1 e.2 s0) ∧
    (∀ i ∈ [Instr.mma 0 0 8 0 0 0, .mscacc 0 1 2 3 0 1 1, .mmovTileToReg 3 16 0 3, .mzeroAll 1],
      Issues i { roles := [0, 2], own := true, queue := true, ticks := 8 } (owned s0)) ∧
    (s0.w.gs 1).toNat < 2 ^ 60 ∧ (s0.w.gs 1).toNat % 8 = 0 ∧ barrierOff s0 (s0.w.gs 1) = .ok 0 ∧ s0.w.trp.inh = false := by
  refine ⟨fun e he => ?_, fun i hi => ?_, by decide, by decide, ok_of (by decide +kernel), rfl⟩
  · simp only [List.mem_cons, List.not_mem_nil, or_false] at he
    rcases he with rfl | rfl | rfl | rfl | rfl | rfl | rfl | rfl | rfl | rfl | rfl | rfl <;> exact issues_of (by decide +kernel)
  · simp only [List.mem_cons, List.not_mem_nil, or_false] at hi
    rcases hi with rfl | rfl | rfl | rfl <;> exact issues_of (by decide +kernel)

/-- VSETVL at MAXVL and one past it, REGGIVE of 1, of all registers but one, of none and of all. -/
theorem witness_ConfigurationTakesEffect :
    (∀ i ∈ [Instr.vsetcfg 0 3 5, .vsetvl 1 2 0, .vsetvl 1 2 1, .reggive 1, .reggive 31, .reggive 0, .reggive 32],
      AtHead i (entryOf i s0.w) (headOf i) ∧ (headOf i).w.mat = [] ∧ (headOf i).w.anyLanding = false ∧ (headOf i).w.runs = [] ∧ Canonical (headOf i) ∧
        spWf ({} : VReg) 0 (headOf i).w.vregs = true) ∧
    s0.w.cfg.maxvl = 128 ∧ s0.w.cfg.nreg = 32 ∧
    (∀ x ∈ [(128 : U64), 129], let s := sw (queued (.vsetvl 1 2 1) (fun e => { e with x := x }))
      AtHead (.vsetvl 1 2 1) { entryOf (.vsetvl 1 2 1) s0.w with x := x } s) := by
  refine ⟨fun i hi => ?_, rfl, rfl, fun x hx => ?_⟩
  · simp only [List.mem_cons, List.not_mem_nil, or_false] at hi
    rcases hi with rfl | rfl | rfl | rfl | rfl | rfl | rfl <;>
      exact ⟨atHead_head (by decide +kernel), rfl, rfl, rfl, canonical_of (by decide +kernel), rfl⟩
  · simp only [List.mem_cons, List.not_mem_nil, or_false] at hx
    rcases hx with rfl | rfl <;> exact atHead_of rfl (by decide +kernel)

/-- REGCLAIM issues; at the head it is allowed with the team's free quota there, waits without it, is refused for a count of 0 and for one past
NREG 64, and is in a claim deadlock when no member has quota. -/
theorem witness_RegclaimWaitsForQuota :
    let claim (n : BitVec 6) (free : Nat) : State :=
      let s := sw (fun w => { queued (.regclaim n) id w with wait := some (.issued (.regclaim n) 0) })
      s.setTeam 1 { s.myTeam with tfree := free }
    Issues (.regclaim 1) { queue := true } s0 ∧ s0.w.trp.inh = false ∧
    (∀ n ∈ [(0 : BitVec 6), 32, 33], AtHead (.regclaim n) (entryOf (.regclaim n) s0.w) (claim n 64) ∧
      (claim n 64).w.claim? = some n.toNat ∧ (claim n 64).w.mat = [] ∧ Canonical (claim n 64) ∧
        (claim n 64).w.wait = some (.issued (.regclaim n) 0)) ∧
    (32 * (claim 32 64).w.cfg.share ≤ (claim 32 64).myTeam.tfree ∧ claimTurn (claim 32 64) = true ∧ (claim 32 64).w.cfg.nreg + 32 = 64 ∧
      progress (claim 32 64).myCluster.pool (((claim 32 64).w.cfg.quota + 32 * (claim 32 64).w.cfg.share, (claim 32 64).w.cfg.floor) ::
        (claim 32 64).quotas 0 0 1) = true) ∧
    ¬ 32 * (claim 32 63).w.cfg.share ≤ (claim 32 63).myTeam.tfree ∧ claimDead (claim 1 0) = true ∧ (claim 1 0).w.claim? = some 1 := by
  intro claim
  refine ⟨issues_of (by decide), rfl, fun n hn => ?_, by decide +kernel, by decide +kernel, by decide +kernel, by decide +kernel⟩
  simp only [List.mem_cons, List.not_mem_nil, or_false] at hn
  rcases hn with rfl | rfl | rfl <;>
    exact ⟨atHead_of rfl (by decide +kernel), by decide +kernel, rfl, canonical_of (by decide +kernel), rfl⟩

/-- VELECT with no bit below VL, and with the lowest at 15; MOP at VL 16. -/
theorem witness_MaskReadsTakeEffect :
    (∀ i ∈ [Instr.velect 1 0 31, .velectIdx 1 7, .vballot 1 0 1, .mop 7 0 1 7 1], AtHead i (entryOf i s0.w) (headOf i) ∧ (headOf i).w.mat = [] ∧
      (headOf i).w.cfg.vl ≤ 8192) ∧
    (∀ i, i < 16 → (s0.w.mask 0).getLsbD i = false) ∧
    (let s := sw (fun w => { queued (.velect 1 0 31) id w with masks := Vector.replicate 8 0x18000 })
     AtHead (.velect 1 0 31) (entryOf (.velect 1 0 31) s0.w) s ∧ s.w.cfg.vl = 16 ∧ (s.w.mask 0).getLsbD 15 = true ∧
       (∀ i, i < 15 → (s.w.mask 0).getLsbD i = false) ∧ Readable s 31 [15]) := by
  refine ⟨fun i hi => ?_, by decide +kernel, atHead_of rfl (by decide +kernel), rfl, by decide +kernel, by decide +kernel, ?_⟩
  · simp only [List.mem_cons, List.not_mem_nil, or_false] at hi
    rcases hi with rfl | rfl | rfl | rfl <;> exact ⟨atHead_head (by decide +kernel), rfl, by decide +kernel⟩
  · exact ⟨⟨by decide +kernel, by decide +kernel, by decide +kernel, fun h => absurd h (by decide +kernel)⟩, rfl⟩

/-- A block of one word, VMOVI v1, at 0x30_0000, its words in the cluster's instruction cache. -/
def withBlock (s : State) : State :=
  let word := wordOf (.vmovi 0 1 0 5)
  { s with mem := Memory.writeN (Memory.writeN s.mem 0x300000 4 0x47040000) 0x300004 4 word.toNat
           clusters := [(0, { s.myCluster with icache := [(0x300000, 0x47040000), (0x300004, word)] })] }

theorem noWalk_of {s : State} {a : Nat} (h : s.myCluster.misses.isEmpty = true) : NoWalk s a := by
  simp only [List.isEmpty_iff] at h
  simp only [NoWalk, h]
  exact fun m hm => (List.not_mem_nil hm).elim

/-- VFETCH of a block, with no VP active, of an address without a header; a caught and a re-sent fetch; VCATCH settled and not. -/
theorem witness_BlocksStartForTheirVps :
    let f (m : BitVec 1) (a : U64) : State := withBlock (sw (queued (.vfetch m 0) (fun e => { e with x := a, rsvT := 1 })))
    (∀ s ∈ [f 0 0x300000, f 1 0x300000], queueMoves s = true ∧ s.w.fetches = [] ∧ s.w.ctl.incont = false ∧ s.w.mat = [] ∧
      awaitBlock 1 none 0x300000 s = none ∧ NoWalk s 1 ∧ blockDelayed s = false ∧ (∃ p, namedBlock s 0x300000 = .ok p) ∧ RunsExist s.w) ∧
    (∀ s ∈ [f 0 0x300000, f 1 0x300000], ∀ e ∈ s.w.vq, opOf e.word = 0x45) ∧
    (List.range 16).filter (fun v => (s0.w.mask 0).getLsbD v) = [] ∧
    (namedBlock (f 0 0x20000000) 0x20000000 = .error (0x07, 0x20000000) ∧ awaitBlock 1 none 0x20000000 (f 0 0x20000000) = none) ∧
    (∀ b ∈ [true, false], let s := withBlock (sw (fun w => { w with fetches := [{ addr := 0x300000, resent := b }], vps := [(15, .caught 0x300000)] }))
      queueMoves s = true ∧ s.w.heldBack = false ∧ s.w.mat = [] ∧ s.w.caughtVps 0x300000 ≠ [] ∧ awaitBlock 1 none 0x300000 s = none ∧
        NoWalk s 1 ∧ blockDelayed s = false ∧ ∃ p, namedBlock s 0x300000 = .ok p) ∧
    Issues (.vcatch 1) { roles := [0, 3], noHandler := true, deps := [1] } s0 ∧ Settled s0 ∧ s0.w.traps = [] ∧ OnDuty s0 ∧
    (let s := headOf (.vsetcfg 0 0 0); ¬ Settled s ∧ Issues (.vcatch 1) { roles := [0, 3], noHandler := true, deps := [1] } s) ∧
    Waits (.vcatch 1) 0 (sw (fun w => { w with wait := some (.issued (.vcatch 1) 0) })) := by
  intro f
  refine ⟨fun s hs => ?_, by decide +kernel, by decide +kernel, ⟨error_of (by decide +kernel), by decide +kernel⟩, fun b hb => ?_,
    issues_of (by decide +kernel), settled_of (by decide +kernel), rfl, onDuty_of (by decide +kernel),
    ⟨not_settled_of rfl rfl, issues_of (by decide +kernel)⟩, rfl, rfl⟩
  · simp only [List.mem_cons, List.not_mem_nil, or_false] at hs
    rcases hs with rfl | rfl <;>
      exact ⟨by decide +kernel, rfl, rfl, rfl, by decide +kernel, noWalk_of rfl, by decide +kernel, exists_ok (by decide +kernel),
        fun e he => (List.not_mem_nil he).elim⟩
  · simp only [List.mem_cons, List.not_mem_nil, or_false] at hb
    rcases hb with rfl | rfl <;> exact ⟨by decide +kernel, rfl, rfl, by decide +kernel, by decide +kernel, noWalk_of rfl, by decide +kernel,
      exists_ok (by decide +kernel)⟩

/-- VXSEED with three entries and with four in its boundary; VXTAKE with an entry and with none; a blocked VP that finds its entry. -/
theorem witness_SeedAndTakeQueues :
    let gate : Gate := { roles := [0, 3], noHandler := true, deps := [1] }
    let q (n : Nat) : State := sw (fun w => { w with xq := List.replicate n { bnd := seedBnd, vp := 0, val := 7 }, qseg := .live })
    let t : State := sw (fun w => { w with xq := [{ bnd := takeBnd, vp := 15, val := 7 }], qseg := .live })
    (∀ s ∈ [q 3, q 4, t], Issues (.vxseed 1) gate s ∧ Issues (.vxtake 1) gate s ∧ s.w.qseg ≠ .spilled ∧ s.w.vq = [] ∧ s.w.fetches = []) ∧
    ((q 3).w.boundary seedBnd).length < 4 ∧ 4 ≤ ((q 4).w.boundary seedBnd).length ∧ canAlloc s0 1 = true ∧ s0.w.qseg = .released ∧
    t.w.boundary takeBnd = [{ bnd := takeBnd, vp := 15, val := 7 }] ∧ (q 3).w.boundary takeBnd = [] ∧
    (let s := { lane 0x52020144 [3] with agent := .control }
     OnDuty s ∧ (∃ x, s.w.run? 0 = some x ∧ namesXin (wordAt x.words 0 0) = true) ∧
       (let u := { s with w := { s.w with vps := [(3, .run 0 0 0 none true)], xq := [{ bnd := 0, vp := 3, val := 1 }] } }
        OnDuty u ∧ u.w.vp 3 = some (.run 0 0 0 none true) ∧ u.w.xinEntry 3 ≠ none)) := by
  intro gate q t
  refine ⟨fun s hs => ?_, by decide +kernel, by decide +kernel, by decide +kernel, rfl, by decide +kernel, by decide +kernel,
    onDuty_of (by decide +kernel), ⟨_, rfl, by decide +kernel⟩, onDuty_of (by decide +kernel), rfl, by decide +kernel⟩
  simp only [List.mem_cons, List.not_mem_nil, or_false] at hs
  rcases hs with rfl | rfl | rfl <;> exact ⟨issues_of (by decide +kernel), issues_of (by decide +kernel), by decide +kernel, rfl, rfl⟩

/-! ### Vector memory and the matrix unit -/

theorem spGet_listed {α : Type} (d : α) (l : List (Nat × α)) (k : Nat) : spGet d l k = d ∨ ∃ e ∈ l, spGet d l k = e.2 := by
  induction l with
  | nil => exact Or.inl rfl
  | cons h t ih =>
    simp only [spGet]
    split
    · exact Or.inr ⟨h, List.mem_cons_self, rfl⟩
    · split
      · exact Or.inl rfl
      · rcases ih with e | ⟨x, hx, e⟩
        · exact Or.inl e
        · exact Or.inr ⟨x, List.mem_cons_of_mem _ hx, e⟩

theorem regsOk_of {w : Wave} (h : (spWf ({} : VReg) 0 w.vregs && w.vregs.all (fun e => spWf (0 : U64) 0 e.2.elems &&
    e.2.elems.all (fun x => decide (x.1 < e.2.tag)) && (decide (e.2.st = .live) || e.2.elems.isEmpty))) = true) : RegsOk w := by
  simp only [Bool.and_eq_true, Bool.or_eq_true, List.all_eq_true, decide_eq_true_eq, List.isEmpty_iff] at h
  refine ⟨h.1, fun v => ?_⟩
  rcases spGet_listed ({} : VReg) w.vregs v with e | ⟨x, hx, e⟩
  · rw [Wave.reg, e]; exact ⟨rfl, fun y hy => (List.not_mem_nil hy).elim, fun _ => rfl⟩
  · rw [Wave.reg, e]
    obtain ⟨⟨h1, h2⟩, h3⟩ := h.2 x hx
    exact ⟨h1, fun y hy => h2 y hy, fun hl => h3.resolve_left hl⟩

/-- `Reaches` as a test. -/
def reachesB (act : List Nat) (f : Nat → Except (BitVec 8) Target) (bad : Nat → Target → Bool) (vl n : Nat) : Bool :=
  act.all (fun j => match f j with | .ok g => !bad j g | .error c => decide (c ≠ 0x0F)) &&
    act.all (fun j => decide (n ≤ j) || (f j).isOk) &&
    (decide (n = vl) || (act.contains n && !(f n).isOk && act.any (fun j => decide (j < n))))

theorem reaches_of {act : List Nat} {f : Nat → Except (BitVec 8) Target} {bad : Nat → Target → Bool} {vl n : Nat}
    (h : reachesB act f bad vl n = true) : Reaches act f bad vl n := by
  simp only [reachesB, Bool.and_eq_true, Bool.or_eq_true, List.all_eq_true, List.any_eq_true, decide_eq_true_eq, List.contains_iff_mem,
    Bool.not_eq_true'] at h
  refine ⟨fun j hj he => ?_, fun j hj hn => ?_, h.2.imp id fun hx => ⟨hx.1.1, ?_, hx.2⟩⟩
  · have := h.1.1 j hj
    rcases he with e | ⟨g, e, b⟩
    · rw [e] at this; simp at this
    · rw [e] at this; simp [b] at this
  · rcases h.1.2 j hj with hl | hr
    · omega
    · cases hf : f j with
      | ok g => exact ⟨g, rfl⟩
      | error c => rw [hf] at hr; cases hr
  · cases hf : f n with
    | ok g => rw [hf] at hx; exact absurd hx.1.2 (by simp [Except.isOk, Except.toBool])
    | error c => exact ⟨c, rfl⟩

/-- The machine with an access at the head of its queue, its scalars x and y as given. -/
def headAt (i : Instr) (x y z : U64) : State := sw (queued i (fun e => { e with x := x, y := y, z := z }))

/-- Its entry. -/
def entryAt (i : Instr) (x y z : U64) : QEntry := { entryOf i s0.w with x := x, y := y, z := z }

theorem atHead_at {i : Instr} {x y z : U64}
    (h : (queueMoves (headAt i x y z) && decide (instrOfWord (wordOf i) = i) && decide (opOf (wordOf i) ≠ 0x45) &&
      !matrixDelayed (headAt i x y z) (wordOf i)) = true) : AtHead i (entryAt i x y z) (headAt i x y z) := by
  simp only [Bool.and_eq_true, decide_eq_true_eq, Bool.not_eq_true'] at h
  exact ⟨h.1.1.1, rfl, ⟨[], rfl⟩, h.1.1.2, h.1.2, rfl, fun m hm => (List.not_mem_nil hm).elim, h.2⟩

/-- Loads of every address form, and of a register past NREG. -/
def loadForms : List Instr := [.vld 0 1 0 0 0 0 0, .vld 1 1 0 0 0 0 1, .vld 0 1 0 31 0 0 0, .vld 0 1 0 32 1 0 0, .vgath 0 1 0 2 1 0 1,
  .vgathC 0 1 0 2 0 0 0, .vld 0 32 0 0 0 0 0]

/-- The address from which 16 words of 4 bytes reach the end of the mapped memory, the next, and its end. -/
def edges : List U64 := [0x1FFFFFC0, 0x1FFFFFC4, 0x20000000]

theorem loadsAtHead : ∀ i ∈ loadForms, ∀ x ∈ edges,
    (queueMoves (headAt i x 4 0) && decide (instrOfWord (wordOf i) = i) && decide (opOf (wordOf i) ≠ 0x45) &&
      !matrixDelayed (headAt i x 4 0) (wordOf i)) = true := by
  intro i hi x hx
  simp only [loadForms, edges, List.mem_cons, List.not_mem_nil, or_false] at hi hx
  rcases hx with rfl | rfl | rfl <;> rcases hi with rfl | rfl | rfl | rfl | rfl | rfl | rfl <;> decide +kernel

theorem roomFor_loads : ∀ i ∈ loadForms, ∀ x ∈ edges, HasRoom (headAt i x 4 0) 1 := by
  intro i hi x hx
  simp only [loadForms, edges, List.mem_cons, List.not_mem_nil, or_false] at hi hx
  rcases hx with rfl | rfl | rfl <;> rcases hi with rfl | rfl | rfl | rfl | rfl | rfl | rfl <;> exact ⟨rfl, Or.inr (by decide +kernel)⟩

/-- The addresses of 16 elements of 4 bytes from each edge are translated. -/
theorem edges_translated : ∀ x ∈ edges, ∀ j < 16, Translated s0 (walked false 4 (x + BitVec.ofNat 64 (j * 4))) := by
  have t : edges.all (fun x => (List.range 16).all (fun j => (walked false 4 (x + BitVec.ofNat 64 (j * 4))).all (fun va => !misses s0 va))) = true := by
    decide +kernel
  intro x hx j hj
  exact translated_of (List.all_eq_true.1 (List.all_eq_true.1 t x hx) j (List.mem_range.2 hj))

/-- Loads at the last bytes that can be read, with all of VL there, with 15 of its elements, and with none; unit stride, a stride, an index
register; as an acquire, and linked with its watermark read; of a register past NREG; with an error in its last element. -/
theorem witness_VectorLoadsTakeEffect :
    (∀ i ∈ loadForms,
      ∀ x ∈ edges, let s := headAt i x 4 0
        AtHead i (entryAt i x 4 0) s ∧ RegsOk s.w ∧ s.w.mat = [] ∧ HasRoom s 1 ∧ (s.w.reg 1).st ≠ .spilled ∧ engineFull s = false ∧
          (∀ r ∈ [0, 2], Readable s r (actives s.w 0)) ∧ ∀ j < 16, Translated s (walked false 4 (x + BitVec.ofNat 64 (j * 4)))) ∧
    (let f (x : U64) (j : Nat) := resolve s0 Acc.load false (x + BitVec.ofNat 64 (j * 4)) 4
     let bad (_ : Nat) (g : Target) : Bool := s0.poisonedAt g
     Reaches (actives s0.w 0) (f 0x1FFFFFC0) bad 16 16 ∧ Reaches (actives s0.w 0) (f 0x1FFFFFC4) bad 16 15 ∧
       Reaches (actives s0.w 1) (f 0x20000000) bad 16 16 ∧ actives s0.w 0 = List.range 16 ∧ f 0x20000000 0 = .error 0x07 ∧
       ({ s0 with poison := [0x1FFFFFE0 / 32] } : State).poisonedAt (.pkg 0x1FFFFFFC) = true) ∧
    (let s := sw (fun w => { queued (.vld 0 1 0 0 0 0 2) (fun e => { e with x := 0x100000 }) w with
       wm := [(3, { v := true, cur := true, esz := 2, waddr := 0x300000, base := 0x100000 })] })
     AtHead (.vld 0 1 0 0 0 0 2) (entryAt (.vld 0 1 0 0 0 0 2) 0x100000 0 0) s ∧ (∃ l, s.w.link = some l) ∧
       linkValue s { v := true, cur := true, esz := 2, waddr := 0x300000, base := 0x100000 } = .ok 0 ∧
       Translated s (walked false 8 0x300000)) := by
  refine ⟨fun i hi x hx => ?_, ⟨reaches_of (by decide +kernel), reaches_of (by decide +kernel), reaches_of (by decide +kernel), by decide +kernel,
    error_of (by decide +kernel), by decide +kernel⟩, atHead_of rfl (by decide +kernel), ⟨_, rfl⟩, ok_of (by decide +kernel),
    translated_of (by decide +kernel)⟩
  refine ⟨atHead_at (loadsAtHead i hi x hx), regsOk_nil rfl, rfl, roomFor_loads i hi x hx, (by decide : (s0.w.reg 1).st ≠ .spilled), ?_, fun r hr => ?_,
    fun j hj => ?_⟩
  · exact (by decide +kernel : engineFull s0 = false)
  · exact ⟨⟨(by decide : ∀ r ∈ [0, 2], r < s0.w.cfg.nreg) r hr, (by decide : ∀ r ∈ [0, 2], (s0.w.reg r).st ≠ .spilled) r hr,
      fun _ _ => (by decide : ∀ r ∈ [0, 2], ∀ j, j ∉ (s0.w.reg r).bad) r hr _, fun h => absurd h (by decide : ¬ s0.w.ctl.rdreltrap = true)⟩, rfl⟩
  · exact translated_congr rfl rfl rfl rfl (edges_translated x hx j hj)

/-- Loads of each size with and without sign, one whose sector is poisoned, an atomic's result, an atomic to a window. -/
theorem witness_ScalarResultsLand :
    let l (n : Nat) (g : Bool) : Load := { sseq := 0, path := .vec, tgt := .pkg 0x100000, size := n, sgn := g, dst := .sreg 31, va := 0x100000 }
    (∀ n ∈ [1, 2, 4, 8], ∀ g ∈ [false, true], let s := sw (fun w => { w with loads := [l n g] })
      takesReplies s = true ∧ loadDue s (l n g) = true ∧ s.poisonedAt (.pkg 0x100000) = false) ∧
    RegsOk s0.w ∧ Canonical s0 ∧
    (let s := { sw (fun w => { w with loads := [l 8 false] }) with poison := [0x8000] }
     takesReplies s = true ∧ loadDue s (l 8 false) = true ∧ s.poisonedAt (.pkg 0x100000) = true) ∧
    (let s := sw (fun w => { w with replies := [{ dst := .sreg 0, val := 7, size := 8 }] })
     takesReplies s = true ∧ s.w.replies[0]? = some { dst := .sreg 0, val := 7, size := 8 } ∧ replyHeld s s.w.die (.sp 0) = false ∧
       atomicHalted s s.w.die (.sp 0) = false) ∧
    (let r : Req := { sseq := 0, grp := 0, path := .vec, tgt := .win 255 8, size := 8, op := .bank 2 1 0, dst := .sreg 5 }
     let s := sw (fun w => { w with reqs := [r] })
     takesReplies s = true ∧ s.w.reqs[0]? = some r ∧ r.op.isBank = true ∧ atomicHalted s s.w.die r.tgt = false ∧ s.w.isGone = false) ∧
    s0.w.reqs = [] ∧ s0.myCluster.l1 = [] := by
  intro l
  refine ⟨fun n hn g hg => ?_, regsOk_nil rfl, canonical_of (by decide +kernel), by decide +kernel, by decide +kernel, by decide +kernel, rfl,
    by decide +kernel⟩
  simp only [List.mem_cons, List.not_mem_nil, or_false] at hn hg
  rcases hn with rfl | rfl | rfl | rfl <;> rcases hg with rfl | rfl <;> decide +kernel

theorem earlyReady_loads : ∀ i ∈ loadForms, ∀ x ∈ edges, earlyReady (headAt i x 4 0) 0 = true ∧ (headAt i x 4 0).running 0 = true := by
  intro i hi x hx
  simp only [loadForms, edges, List.mem_cons, List.not_mem_nil, or_false] at hi hx
  rcases hx with rfl | rfl | rfl <;> rcases hi with rfl | rfl | rfl | rfl | rfl | rfl | rfl <;> decide +kernel

/-- An element of v1 lands, with one of its address; a queued load is sent early with every element there, with 15, and with an address whose
walk has still to end; a linked element that its watermark admits, below the region's base and in it. -/
theorem witness_VectorElementsLand :
    let live (w : Wave) : Wave := { w with vregs := [(1, { st := .live, tag := 16 })] }
    let l (k : Option Nat) (a : U64) : Load :=
      { sseq := 0, path := .vec, tgt := .pkg a.toNat, size := 4, dst := .elem 1 15, va := a, linked := k, shared := true }
    (let s := sw (fun w => live { w with vland := [l none 0x100000, l none 0x100000] })
     takesReplies s = true ∧ s.w.vland[1]? = some (l none 0x100000) ∧ loadDue s (l none 0x100000) = true ∧ RegsOk s.w ∧ Canonical s) ∧
    (∀ i ∈ loadForms, ∀ x ∈ edges, earlyReady (headAt i x 4 0) 0 = true ∧ (headAt i x 4 0).running 0 = true) ∧
    (let f (x : U64) (j : Nat) := resolve s0 Acc.load false (x + BitVec.ofNat 64 (j * 4)) 4
     Canonical s0 ∧ LinksUp s0 ∧ s0.w.reqs = [] ∧ s0.w.cfg.vl = 16 ∧
       (∀ j < 16, Translated s0 (walked false 4 (0x1FFFFFC4 + BitVec.ofNat 64 (j * 4)))) ∧ ¬ Translated s0 (walked false 4 0x40000000) ∧
       f 0x1FFFFFC4 14 = .ok (.pkg 0x1FFFFFFC) ∧ s0.poisonedAt (.pkg 0x1FFFFFFC) = false ∧ f 0x1FFFFFC4 15 = .error 0x07) ∧
    (∀ y ∈ [((0x2FFFFC : U64), (0 : U64)), (0x300000, 1)],
      let m : Wm := { v := true, cur := true, esz := 2, waddr := 0x400000, base := 0x300000 }
      let b := sw (fun w => live { queued (.vld 0 1 0 0 0 0 2) id w with wm := [(0, m)], vland := [l (some 0) y.1] })
      let s : State := { b with mem := Memory.writeN b.mem 0x400000 8 y.2.toNat }
      OnDuty s ∧ s.w.trp.inh = false ∧ s.w.leaving = false ∧ s.w.heldBack = false ∧ RegsOk s.w ∧ Canonical s ∧ s.w.link = some (0, m) ∧
        linkValue s m = .ok y.2.toNat ∧ Translated s (walked false 8 0x400000) ∧ NoWalk s 1 ∧ s.w.landingIn [64] = false ∧
        (y.1 < m.base ∨ (y.1 - m.base).toNat / 2 ^ m.esz.toNat < y.2.toNat)) := by
  intro live l
  refine ⟨⟨by decide +kernel, by decide +kernel, by decide +kernel, regsOk_of (by decide +kernel), canonical_of (by decide +kernel)⟩, earlyReady_loads,
    ⟨canonical_of (by decide +kernel), rfl, rfl, rfl, fun j hj => edges_translated _ (by decide) j hj, fun h => absurd (h 0x40000000 (by decide)) (by decide +kernel),
      ok_of (by decide +kernel), by decide +kernel, error_of (by decide +kernel)⟩, fun y hy => ?_⟩
  simp only [List.mem_cons, List.not_mem_nil, or_false] at hy
  rcases hy with rfl | rfl <;> exact ⟨onDuty_of (by decide +kernel), rfl, rfl, rfl, regsOk_of (by decide +kernel), canonical_of (by decide +kernel), rfl,
    ok_of (by decide +kernel), translated_of (by decide +kernel), noWalk_of rfl, by decide +kernel, by decide +kernel⟩

/-- Stores, atomics and reductions of each address form, with their operation registers. -/
def storeForms : List (Instr × U64) := [(.vst 0 1 1 0 0 0 0 1, 0), (.vst 0 1 0 0 31 0 0 0, 0), (.vst 1 1 1 0 32 1 0 0, 0), (.vscat 0 1 1 0 2 1 0 1, 0),
  (.vamo 0 1 0 0 0 0 0, 0x09), (.vamo 0 1 0 1 0 0 1, 0x41), (.vamo 0 1 0 32 1 0 0, 0x0A), (.vamo 0 1 0 0 0 0 0, 0x50),
  (.bkred 0 1 0 2 1 0 1, 0x0A), (.bkred 0 1 0 2 0 0 0, 0x01), (.bkred 0 1 0 2 0 0 0, 0x0B)]

theorem storesAtHead : ∀ e ∈ storeForms, ∀ x ∈ edges,
    (queueMoves (headAt e.1 x 4 e.2) && decide (instrOfWord (wordOf e.1) = e.1) && decide (opOf (wordOf e.1) ≠ 0x45) &&
      !matrixDelayed (headAt e.1 x 4 e.2) (wordOf e.1)) = true := by
  intro e he x hx
  simp only [storeForms, edges, List.mem_cons, List.not_mem_nil, or_false] at he hx
  rcases hx with rfl | rfl | rfl <;> rcases he with rfl | rfl | rfl | rfl | rfl | rfl | rfl | rfl | rfl | rfl | rfl <;> decide +kernel

/-- Stores, atomics and reductions of each address form at the head of the queue, with every element there, 15 and none; the atomics and the
reductions at the last operation, at the next and, for the atomics, at the last scope and the next; a store of a register in which a load
has still to land. -/
theorem witness_VectorStoresTakeEffect :
    (∀ e ∈ storeForms,
      ∀ x ∈ edges, let s := headAt e.1 x 4 e.2
        AtHead e.1 (entryAt e.1 x 4 e.2) s ∧ RegsOk s.w ∧ s.w.mat = [] ∧ engineFull s = false ∧
          ∀ j < 16, Translated s (walked false 4 (x + BitVec.ofNat 64 (j * 4)))) ∧
    (∀ r ∈ [0, 1, 2], Readable s0 r (actives s0.w 0)) ∧ HasRoom s0 1 ∧ s0.w.ew = 32 ∧
    (∀ acc ∈ [Acc.store, { r := true, w := true, net := none }],
     let f (x : U64) (j : Nat) := resolve s0 acc false (x + BitVec.ofNat 64 (j * 4)) 4
     let bad (_ : Nat) (g : Target) : Bool := s0.poisonedAt g
     Reaches (actives s0.w 0) (f 0x1FFFFFC0) bad 16 16 ∧ Reaches (actives s0.w 0) (f 0x1FFFFFC4) bad 16 15 ∧
       Reaches (actives s0.w 1) (f 0x20000000) bad 16 16 ∧ f 0x20000000 0 = .error 0x07) ∧
    (let s := sw (fun w => { queued (.vst 0 1 0 0 0 0 0 0) id w with
       vregs := [(1, { st := .live, tag := 16 })]
       vland := [{ sseq := 0, path := .vec, tgt := .pkg 0x100000, size := 4, dst := .elem 1 3, va := 0x100000, elem := 3 }] })
     AtHead (.vst 0 1 0 0 0 0 0 0) (entryAt (.vst 0 1 0 0 0 0 0 0) 0 0 0) s ∧ s.w.landingIn [1] = true ∧ s.w.reqs = [] ∧ s.w.replies = [] ∧ RegsOk s.w) := by
  refine ⟨fun e he x hx => ⟨atHead_at (storesAtHead e he x hx), regsOk_nil rfl, rfl, (by decide +kernel : engineFull s0 = false), fun j hj => ?_⟩,
    fun r hr => ?_, ⟨rfl, Or.inr (by decide +kernel)⟩, rfl, fun acc ha => ?_, atHead_of rfl (by decide +kernel), by decide +kernel, rfl, rfl,
    regsOk_of (by decide +kernel)⟩
  · exact translated_congr rfl rfl rfl rfl (edges_translated x hx j hj)
  · simp only [List.mem_cons, List.not_mem_nil, or_false] at hr
    rcases hr with rfl | rfl | rfl <;> exact ⟨⟨by decide, by decide, fun _ _ h => (List.not_mem_nil h).elim, fun h => absurd h (by decide)⟩, rfl⟩
  · simp only [List.mem_cons, List.not_mem_nil, or_false] at ha
    rcases ha with rfl | rfl <;> exact ⟨reaches_of (by decide +kernel), reaches_of (by decide +kernel), reaches_of (by decide +kernel),
      error_of (by decide +kernel)⟩

/-- WMLINK; WMPUB of a word, of a misaligned one, in the aperture, in no space and past the mapped memory; BARRIVE; a marker with nothing
before it, and with an earlier store. -/
theorem witness_WatermarksAndMarkers :
    AtHead (.wmlink 7 1 2 3) (entryAt (.wmlink 7 1 2 3) 8 0 0) (headAt (.wmlink 7 1 2 3) 8 0 0) ∧
    (∀ x ∈ [(0x100000 : U64), 0x100004, 0x0FFFFF0000000000, 0x1000000000000000, 0x20000000],
      AtHead (.wmpub 1 2) (entryAt (.wmpub 1 2) x 5 0) (headAt (.wmpub 1 2) x 5 0)) ∧
    translate s0 0 true Acc.atomic 0x100000 = .ok (.pkg 0x100000) ∧ s0.poisoned 0x100000 = false ∧
    translate s0 0 true Acc.atomic 0x20000000 = .error 0x07 ∧
    AtHead (.barrive 4 1 1) (entryAt (.barrive 4 1 1) 0 0 0) (headAt (.barrive 4 1 1) 0 0 0) ∧
    (let e : QEntry := { entryAt (.barrive 0 1 5) 1016 0 3 with x := 1016 }
     let r : Req := { sseq := 2, grp := 2, path := .vec, tgt := .pkg 0x100000, size := 8, op := .store 0 }
     let s := sw (fun w => { w with markers := [e] })
     let u := sw (fun w => { w with markers := [e], reqs := [r] })
     let v := s.setTeam 1 { s.myTeam with bad := [127] }
     e.word = wordOf (.barrive 0 1 5) ∧ s.running s.w.die = true ∧ SpHere s ∧ e.x.toNat < s.myTeam.kib * 1024 ∧ e.x.toNat / 8 ∉ s.myTeam.bad ∧
       (v.running v.w.die = true ∧ v.w.markers = [e] ∧ v.myTeam.cl.isSome = true ∧ e.x.toNat / 8 ∈ v.myTeam.bad ∧ v.w.isGone = false ∧ v.w.reqs = [] ∧
         v.others = []) ∧ (∀ r ∈ s.w.reqs, r.path = .vec ∨ r.path = .gath → e.z.toNat ≤ r.sseq) ∧
       u.running u.w.die = true ∧ ¬ ∀ r ∈ u.w.reqs, r.path = .vec ∨ r.path = .gath → e.z.toNat ≤ r.sseq) := by
  refine ⟨atHead_at (by decide +kernel), fun x hx => ?_, ok_of (by decide +kernel), rfl, error_of (by decide +kernel), atHead_at (by decide +kernel),
    rfl, by decide +kernel, ⟨by decide +kernel, by decide +kernel, by decide +kernel⟩, by decide +kernel, by decide +kernel,
    ⟨by decide +kernel, rfl, by decide +kernel, by decide +kernel, rfl, rfl, rfl⟩, fun r hr => (List.not_mem_nil hr).elim, by decide +kernel,
    fun h => absurd (h _ (List.mem_singleton.2 rfl) (Or.inl rfl)) (by decide)⟩
  simp only [List.mem_cons, List.not_mem_nil, or_false] at hx
  rcases hx with rfl | rfl | rfl | rfl | rfl <;> exact atHead_at (by decide +kernel)

/-- MMA and MMAS of every pair of formats, with the last groups and with a group past NREG. -/
theorem witness_MatrixProducts :
    (∀ i ∈ [Instr.mma 0 0 8 0 0 0, .mma 3 0 8 1 1 0, .mma 1 0 24 2 0 0, .mma 1 0 25 2 0 0, .mma 2 0 8 3 0 0, .mmas 0 0 16 0 0 0 0 1,
        .mmas 0 0 16 1 1 0 3 1, .mmas 0 0 16 2 0 0 1 0], AtHead i (entryAt i 0 0 0) (headAt i 0 0 0)) ∧
    s0.w.mat = [] ∧ TilesOk s0.w ∧ s0.w.cfg.ewc = 2 ∧ Named s0 (List.range 32) := by
  refine ⟨fun i hi => atHead_at ?_, rfl, ⟨rfl, rfl⟩, rfl, fun r hr => ?_⟩
  · simp only [List.mem_cons, List.not_mem_nil, or_false] at hi
    rcases hi with rfl | rfl | rfl | rfl | rfl | rfl | rfl | rfl <;> decide +kernel
  · exact ⟨List.mem_range.1 hr, (by decide : ({} : VReg).st ≠ .spilled), rfl, rfl, fun h => absurd h (by decide)⟩

/-- MEPI captures one word and sixteen, and one word past the mapped memory; at the head it is in order, and names its own tile twice; MMA and
MMAS with a program without and with OUT and COMP, with a clash of tiles, and without a program. -/
theorem witness_EpiloguesRun :
    let gate (pc : U64) (n : Nat) : Gate :=
      { roles := [0, 2], own := true, queue := true, ticks := 2
        await := awaitFetch 0 none ((List.range n).map (fun k => pc + 4 + BitVec.ofNat 64 (4 * k))) }
    let at' (pc : U64) : State :=
      let s := owned (sw (fun w => { w with pc := pc }))
      s.setMyCluster { s.myCluster with icache := (List.range 17).map (fun k => (pc.toNat + 4 * k, 0)) }
    let withProgram (i : Instr) (p : Instr) : State :=
      sw (fun w => { queued i id w with mepi := some ⟨wordOf p, [wordOf (.vaddF32 0 18 0 0x45 16)], []⟩ })
    (∀ l ∈ [(0 : BitVec 4), 15], fetchWords (at' 0x100000) 0x100004 (l.toNat + 1) = .ok (List.replicate (l.toNat + 1) 0) ∧
      Issues (.mepi 1 0 0 l 0 0 0 0) { gate 0x100000 (l.toNat + 1) with deps := epiScalars (List.replicate (l.toNat + 1) 0) } (at' 0x100000)) ∧
    (fetchWords (at' 0x1FFFFFFC) 0x20000000 1 = .error (0x07, 0x20000000) ∧ CanTrap (at' 0x1FFFFFFC) ∧ 
      Issues (.mepi 1 0 0 0 0 0 0 0) (gate 0x1FFFFFFC 1) (at' 0x1FFFFFFC)) ∧
    (∀ i ∈ [Instr.mepi 1 0 0 0 0 0 0 0, .mepi 1 0 0 0 0 1 1 0, .mepi 1 0 0 0 0 1 2 1], AtHead i (entryAt i 0 0 0) (headAt i 0 0 0)) ∧
    (∀ i ∈ [Instr.mma 0 0 8 2 0 1, .mmas 0 0 0 1 0 1 0 0],
      AtHead i (entryOf i s0.w) (headOf i) ∧ (headOf i).w.mepi = none ∧
      ∀ p ∈ [Instr.mepi 1 0 0 0 0 0 0 0, .mepi 1 0 0 0 1 1 2 1, .mepi 0 0 0 0 0 0 0 0], AtHead i (entryOf i s0.w) (withProgram i p) ∧
        ∃ m, (withProgram i p).w.mepi = some m ∧ (m.comp = true → m.lt ≠ m.st)) ∧
    (∃ m, (withProgram .nop (.mepi 1 0 0 0 1 1 2 1)).w.mepi = some m ∧ m.st = 1 ∧ m.lt = 2 ∧ m.comp = true ∧ m.wout = true) := by
  intro gate at' withProgram
  refine ⟨fun l hl => ?_, ⟨error_of (by decide +kernel), canTrap_of (by decide +kernel), issues_of (by decide +kernel)⟩, fun i hi => atHead_at ?_, fun i hi => ?_,
    _, rfl, by decide +kernel, by decide +kernel, by decide +kernel, by decide +kernel⟩
  · simp only [List.mem_cons, List.not_mem_nil, or_false] at hl
    rcases hl with rfl | rfl <;> exact ⟨ok_of (by decide +kernel), issues_of (by decide +kernel)⟩
  · simp only [List.mem_cons, List.not_mem_nil, or_false] at hi
    rcases hi with rfl | rfl | rfl <;> decide +kernel
  · simp only [List.mem_cons, List.not_mem_nil, or_false] at hi
    rcases hi with rfl | rfl <;> refine ⟨atHead_head (by decide +kernel), rfl, fun p hp => ?_⟩ <;>
      simp only [List.mem_cons, List.not_mem_nil, or_false] at hp <;> rcases hp with rfl | rfl | rfl <;>
      exact ⟨atHead_of rfl (by decide +kernel), _, rfl, by decide +kernel⟩

/-- Each tile instruction at the head of the queue; MSAVE and MREST of the last 16 KiB of mapped memory, of the next address, and misaligned. -/
theorem witness_TileInstructions :
    (∀ i ∈ [Instr.mscacc 0 1 2 3 0 1 1, .mmovTileToReg 3 16 0 3, .mmovRegToTile 3 16 1 3, .mzero 2 1, .mzeroAll 0, .msave 3 1 0, .mrest 3 1 0],
      AtHead i (entryAt i 0 0 0) (headAt i 0 0 0)) ∧
    (∀ a ∈ [(0x1FFFC000 : U64), 0x20000000, 0x100020], let s := { headAt (.msave 3 1 0) 0 0 0 with w := regs [(1, a)] (headAt (.msave 3 1 0) 0 0 0).w }
      AtHead (.msave 3 1 0) (entryAt (.msave 3 1 0) 0 0 0) s ∧ s.w.outstanding 1 = false ∧ Canonical s ∧ LinksUp s ∧
        Translated s (walked false 16384 a) ∧
        (a = 0x1FFFC000 → resolve s Acc.store false a 16384 = .ok (.pkg 0x1FFFC000) ∧ resolve s Acc.load false a 16384 = .ok (.pkg 0x1FFFC000)) ∧
        (a = 0x20000000 → resolve s Acc.store false a 16384 = .error 0x07) ∧ (a = 0x100020 → resolve s Acc.load false a 16384 = .error 0x06)) ∧
    (∀ k, k < 512 → s0.poisonedAt ((Target.pkg 0x1FFFC000).shift (32 * k)) = false) ∧
    s0.w.mat = [] ∧ TilesOk s0.w ∧ RegsOk s0.w ∧ Named s0 [2, 3] ∧ SpHere s0 ∧
    (let s := headAt (.msave 3 0 3) 0 0 0; AtHead (.msave 3 0 3) (entryAt (.msave 3 0 3) 0 0 0) s ∧
      (let t := s.setTeam 1 { s.myTeam with kib := 16 }; resolve t Acc.store true 0 16384 = .ok (.sp 0) ∧ SpHere t)) := by
  refine ⟨fun i hi => atHead_at ?_, fun a ha => ?_, fun _ _ => rfl, rfl, ⟨rfl, rfl⟩, regsOk_nil rfl, fun r hr => ?_,
    ⟨by decide +kernel, by decide +kernel, by decide +kernel⟩, atHead_at (by decide +kernel), ok_of (by decide +kernel), by decide +kernel,
    by decide +kernel, by decide +kernel⟩
  · simp only [List.mem_cons, List.not_mem_nil, or_false] at hi
    rcases hi with rfl | rfl | rfl | rfl | rfl | rfl | rfl <;> decide +kernel
  · simp only [List.mem_cons, List.not_mem_nil, or_false] at ha
    rcases ha with rfl | rfl | rfl <;>
      refine ⟨atHead_of rfl (by decide +kernel), by decide +kernel, canonical_of (by decide +kernel), rfl, translated_of (by decide +kernel),
        fun h => ?_, fun h => ?_, fun h => ?_⟩ <;>
      first
        | exact absurd h (by decide)
        | exact ⟨ok_of (by decide +kernel), ok_of (by decide +kernel)⟩
        | exact error_of (by decide +kernel)
  · simp only [List.mem_cons, List.not_mem_nil, or_false] at hr
    rcases hr with rfl | rfl <;> exact ⟨by decide, by decide, rfl, rfl, fun h => absurd h (by decide)⟩

/-- MACQ of the owner, of a free unit, of another's and with tiles of another held; MREL with and without work in flight. -/
theorem witness_MatrixOwnership :
    let gate : Gate := { roles := [0, 2], noHandler := true, ticks := 2 }
    let waits (w : Wave) : Wave := { w with wait := some (.issued .macq 0) }
    let unit (f : Cluster → Cluster) (s : State) : State := s.setMyCluster (f s.myCluster)
    let free := unit (fun c => { c with macq := [1] }) (sw waits)
    let taken := unit (fun c => { c with owner := some 2, tileOf := some 2 }) (pair id)
    let swap := unit (fun c => { c with macq := [1], tileOf := some 2 }) { pair waits with others := [{ mate s0.w with savePc := 0 }] }
    let away := unit (fun c => { c with kept := [(3, 7)] }) { swap with others := [{ mate s0.w with place := .saved 0 1 }] }
    (∀ s ∈ [s0, owned s0, free, taken, swap, away], Canonical s) ∧
    (OnDuty away ∧ MatrixTurn away ∧ away.myCluster.tileOf = some 2 ∧ (∀ w ∈ away.others, w.place ≠ away.w.place) ∧ LinksUp away ∧
      ∃ s1, saveTileWords (away.focus 2) away.myCluster.kept = .ok s1) ∧
    (Issues .macq gate (owned s0) ∧ (owned s0).myCluster.owner = some 1) ∧
    (Issues .macq gate s0 ∧ s0.myCluster.owner = none ∧ s0.myCluster.macq = [] ∧ s0.myCluster.tileOf = none ∧ s0.w.everOwned = false) ∧
    (Issues .macq gate taken ∧ taken.myCluster.owner = some 2) ∧
    (Waits .macq 0 free ∧ MatrixTurn free ∧ OnDuty free) ∧
    (let s := unit (fun c => { c with owner := some 2, macq := [1] }) (sw waits); Waits .macq 0 s ∧ s.myCluster.owner = some 2 ∧ 1 ∈ s.myCluster.macq) ∧
    (OnDuty swap ∧ MatrixTurn swap ∧ swap.myCluster.tileOf = some 2 ∧ ∃ s1, saveTiles (swap.focus 2) = .ok s1) ∧
    (Issues .mrel { gate with own := true } (owned s0) ∧ Waits .mrel 0 (owned (sw (fun w => { w with wait := some (.issued .mrel 0) })))) ∧
    (let s := owned (sw (fun w => { w with mat := [entryAt (.mzero 0 0) 0 0 0] }))
     Issues .mrel { gate with own := true } s ∧ s.w.mat ≠ [] ∧ OnDuty s) := by
  intro gate waits unit free taken swap away
  refine ⟨fun s hs => ?_, ⟨onDuty_of (by decide +kernel), ⟨by decide +kernel, by decide +kernel, by decide +kernel⟩, by decide +kernel,
    by decide +kernel, rfl, exists_ok (by decide +kernel)⟩, ⟨issues_of (by decide +kernel), by decide +kernel⟩, ⟨issues_of (by decide +kernel), by decide +kernel, by decide +kernel,
    by decide +kernel, rfl⟩, ⟨issues_of (by decide +kernel), by decide +kernel⟩, ⟨⟨rfl, rfl⟩, ⟨by decide +kernel, by decide +kernel,
    fun w hw => (List.not_mem_nil hw).elim⟩, onDuty_of (by decide +kernel)⟩, ⟨⟨rfl, rfl⟩, by decide +kernel, by decide +kernel⟩,
    ⟨onDuty_of (by decide +kernel), ⟨by decide +kernel, by decide +kernel, by decide +kernel⟩, by decide +kernel, exists_ok (by decide +kernel)⟩,
    ⟨issues_of (by decide +kernel), rfl, rfl⟩, issues_of (by decide +kernel), by decide, onDuty_of (by decide +kernel)⟩
  simp only [List.mem_cons, List.not_mem_nil, or_false] at hs
  rcases hs with rfl | rfl | rfl | rfl | rfl | rfl <;> exact canonical_of (by decide +kernel)

/-- Barrier operands at the edges: the last doubleword in both forms and the next, misaligned, past the address space. BARINIT at both ends of
EXPECT and past them; BWAIT whose phase has come and has not. -/
theorem witness_BarriersInitAndWait :
    (s0.myTeam.kib = 1 ∧ barrierOff s0 1016 = .ok 1016 ∧ barrierOff s0 0x0FFFFF00000003F8 = .ok 1016 ∧ barrierOff s0 1024 = .error 0x05 ∧
      barrierOff s0 4 = .error 0x06 ∧ barrierOff s0 0x1000000000000000 = .error 0x05) ∧
    (∀ n ∈ [(0 : U64), 1, 0x7FFFFFFF, 0x80000000], let s := sw (regs [(1, 1016), (2, n)])
      Issues (.barinit 1 2) { deps := [1, 2], ticks := 2, mem := true } s ∧ SpHere s ∧ CanTrap s ∧ barrierOff s (s.w.gs 1) = .ok 1016 ∧ s.w.gs 2 = n) ∧
    (let s := sw (regs [(1, 1024), (2, 1)]); Issues (.barinit 1 2) { deps := [1, 2], ticks := 2, mem := true } s ∧ barrierOff s (s.w.gs 1) = .error 0x05 ∧ CanTrap s) ∧
    (∀ p ∈ [(0 : BitVec 1), 1], Issues (.bwait 0 p) { deps := [0], ticks := 2, mem := true } s0 ∧ barrierOff s0 (s0.w.gs 0) = .ok 0 ∧ SpHere s0 ∧ Canonical s0 ∧
      0 ∉ s0.myTeam.bad ∧ (∀ k ∈ [0, 1], Waits (.bwait 0 p) k (sw (fun w => { w with wait := some (.issued (.bwait 0 p) k) }))) ∧
      (let s := s0.setTeam 1 { s0.myTeam with bad := [0] }; Issues (.bwait 0 p) { deps := [0], ticks := 2, mem := true } s ∧ 0 ∈ s.myTeam.bad ∧
        barrierOff s (s.w.gs 0) = .ok 0 ∧ SpHere s ∧ CanTrap s ∧ Canonical s)) ∧
    Memory.readN s0.myTeam.sp 0 8 / 2 ^ 63 % 2 ≠ (1 : BitVec 1).toNat := by
  refine ⟨by refine ⟨by decide +kernel, ?_, ?_, ?_, ?_, ?_⟩ <;> first | exact ok_of (by decide +kernel) | exact error_of (by decide +kernel),
    fun n hn => ?_, ⟨issues_of (by decide +kernel), error_of (by decide +kernel), canTrap_of (by decide +kernel)⟩, fun p hp => ?_, by decide +kernel⟩
  · simp only [List.mem_cons, List.not_mem_nil, or_false] at hn
    rcases hn with rfl | rfl | rfl | rfl <;> exact ⟨issues_of (by decide +kernel), ⟨by decide +kernel, by decide +kernel, by decide +kernel⟩,
      canTrap_of (by decide +kernel), ok_of (by decide +kernel), by decide +kernel⟩
  · simp only [List.mem_cons, List.not_mem_nil, or_false] at hp
    rcases hp with rfl | rfl <;> exact ⟨issues_of (by decide +kernel), ok_of (by decide +kernel), ⟨by decide +kernel, by decide +kernel, by decide +kernel⟩,
      canonical_of (by decide +kernel), by decide +kernel, (fun k hk => ⟨rfl, rfl⟩), issues_of (by decide +kernel), by decide +kernel, ok_of (by decide +kernel),
      ⟨by decide +kernel, by decide +kernel, by decide +kernel⟩, canTrap_of (by decide +kernel), canonical_of (by decide +kernel)⟩

/-- BCOPY of 32 bytes with a barrier, of none, of too many, from past the address space and past the scratchpad, with a bad barrier, and with a
full engine; a copy in the engine that goes through, that has a barrier, and whose source or destination ends at the mapped memory. -/
theorem witness_BulkCopies :
    let i : Instr := .bcopy 1 2 3 4 0
    let with4 (a b c d : U64) : State := sw (regs [(1, a), (2, b), (3, c), (4, d)])
    let issues (s : State) (sec : Nat) : Prop := 
      Issues i { roles := [0, 1], deps := [1, 2, 3, 4], ticks := 2 + sec, sectors := sec, cls := some 0, mem := true
                 vas := copyVas (s.w.gs 1) (s.w.gs 2) } s ∧
      s.myCluster.bulk.length < 64 ∧ CanTrap s ∧ Canonical s
    (∀ e ∈ [((0x400000 : U64), (0x300000 : U64), (32 : U64), (8 : U64), 2), (0x400000, 0x300000, 0, 8, 0),
        (0x0FFFFF0000000000, 0x0FFFFF0000000000, 0x80000000, 8, 0), (0x1000000000000000, 0x300000, 32, 8, 2), (0x0FFFFF00000003E8, 0x300000, 32, 8, 1),
        (0x400000, 0x300000, 32, 4, 2)], issues (with4 e.1 e.2.1 e.2.2.1 e.2.2.2.1) e.2.2.2.2) ∧
    copyBad s0 0x400000 0x300000 32 = none ∧ copyBarrier (with4 0x400000 0x300000 32 8) 4 = .ok (some 8) ∧
    copyBarrier (with4 0x400000 0x300000 32 4) 4 = .error 0x06 ∧
    (let b : Bulk := { wave := 1, team := 1, asid := 0, sup := true, dst := 0, src := 0, count := 1, bar := none }
     let s := s0.setMyCluster { s0.myCluster with bulk := List.replicate 64 b }
     AtInstruction s ∧ reservedCode i = false ∧ s.w.trp.inh = false ∧ s.w.hdr.role s.w.member = 0 ∧ s.w.fence = none ∧
       (∀ r ∈ [1, 2, 3, 4], s.w.outstanding r = false) ∧ 64 ≤ s.myCluster.bulk.length) ∧
    (∀ e ∈ [((0 : BitVec 16), (5 : Int)), (3, 0), (3, 1), (3, 2)],
      let b : Bulk := { wave := 1, team := 1, asid := 0, sup := true, dst := 0x400000, src := 0x300000, count := 32, bar := none }
      let s := s0.setMyCluster { s0.myCluster with bulk := [b], rate := { dflt := ⟨0xFFFF, e.1, 0, 0⟩ }, tokens := if e.2 = 0 then [] else [(0, e.2)] }
      Canonical s ∧ ((s.cluster 0 0).rate.entry 0).at 0 = e.1 ∧ spGet (0 : Int) (s.cluster 0 0).tokens (tokKey 0 0) = e.2 ∧
        spWf (0 : Int) 0 (s.cluster 0 0).tokens = true ∧ copySectors b.dst b.src b.count = 2) ∧
    (∀ e ∈ [((0x400000 : U64), (0x300000 : U64), (none : Option U64)), (0x400000, 0x300000, some 8), (0x400000, 0x1FFFFFFF, none),
        (0x1FFFFFFF, 0x300000, none)],
      let b : Bulk := { wave := 1, team := 1, asid := 0, sup := true, dst := e.1, src := e.2.1, count := 2, bar := e.2.2 }
      let s := s0.setMyCluster { s0.myCluster with bulk := [b] }
      let v := copyView s 0 0 b
      s.hasCluster 0 0 = true ∧ s.running 0 = true ∧ (s.cluster 0 0).bulk[0]? = some b ∧ (s.cluster 0 0).hasToken b.asid 0 = true ∧
        (s.pkg.failedLinks = [] ∧ (s.cluster 0 0).l1 = [] ∧ s.w.id = 1 ∧ s.w.isGone = false ∧ s.others = [] ∧ (s.team 1).cl.isSome = true ∧
          Memory.wf (s.team 1).sp = true ∧ 1 ∉ (s.team 1).bad ∧ v.poisonedAt (.pkg e.2.1.toNat) = false) ∧ Canonical s ∧
        copyByte v copyRead e.2.1 = .ok (some (.pkg e.2.1.toNat)) ∧ copyByte v copyWrite e.1 = .ok (some (.pkg e.1.toNat)) ∧
        (e.2.1 = 0x1FFFFFFF → copyByte v copyRead (e.2.1 + 1) = .error 0x07) ∧
        (e.2.1 = 0x300000 → copyByte v copyRead (e.2.1 + 1) = .ok (some (.pkg 0x300001))) ∧
        (e.1 = 0x1FFFFFFF → copyByte v copyWrite (e.1 + 1) = .error 0x07) ∧
        (e.1 = 0x400000 → copyByte v copyWrite (e.1 + 1) = .ok (some (.pkg 0x400001)))) := by
  intro i with4 issues
  refine ⟨fun e he => ?_, by decide +kernel, ok_of (by decide +kernel), error_of (by decide +kernel),
    ⟨atInstruction_of (by decide +kernel), rfl, rfl, by decide +kernel, rfl, by decide +kernel, by decide +kernel⟩, fun e he => ?_, fun e he => ?_⟩
  rotate_left
  · simp only [List.mem_cons, List.not_mem_nil, or_false] at he
    rcases he with rfl | rfl | rfl | rfl <;> exact ⟨canonical_of (by decide +kernel), by decide +kernel⟩
  rotate_left
  · simp only [List.mem_cons, List.not_mem_nil, or_false] at he
    rcases he with rfl | rfl | rfl | rfl | rfl | rfl <;>
      exact ⟨issues_of (by decide +kernel), by decide +kernel, canTrap_of (by decide +kernel), canonical_of (by decide +kernel)⟩
  simp only [List.mem_cons, List.not_mem_nil, or_false] at he
  rcases he with rfl | rfl | rfl | rfl <;>
    refine ⟨by decide +kernel, by decide +kernel, by decide +kernel, by decide +kernel, by decide +kernel, canonical_of (by decide +kernel),
      ok_of (by decide +kernel), ok_of (by decide +kernel), fun h => ?_, fun h => ?_, fun h => ?_, fun h => ?_⟩ <;>
    first
      | exact absurd h (by decide)
      | exact ok_of (by decide +kernel)
      | exact error_of (by decide +kernel)

/-- CMDB of 0, 1, 64 and 65 commands and of a misaligned list; a list of one good descriptor and of one with a reserved bit, and a list that
ends at the mapped memory. -/
theorem witness_CommandLists :
    let i : Instr := .cmdb 1 2
    (∀ e ∈ [((0x300000 : U64), (0 : U64)), (0x300000, 1), (0x300000, 64), (0x300000, 65), (0x300010, 1)],
      let s := sw (regs [(1, e.1), (2, e.2)]); Issues i { roles := [0, 1], deps := [1, 2], ticks := 0, mem := true } s ∧ CanTrap s ∧ s.w.fitsT 2 = true) ∧
    (∀ e ∈ [((0x300000 : U64), 32), (0x300000, 2 ^ 31)],
      let b := sw (fun w => { regs [(1, e.1), (2, 1)] w with wait := some (.issued i 0) })
      let s : State := { b with mem := Memory.writeN (Memory.writeN (Memory.writeN b.mem 0x300000 8 0x400000) 0x300008 8 0x500000) 0x300010 8 e.2 }
      Waits i 0 s ∧ listWords s 0x300000 4 = .ok (some [0x400000, 0x500000, e.2, 0]) ∧ CanTrap s ∧ OnDuty s ∧ NoWalk s 0 ∧ Canonical s ∧
        (∀ k < 4, Translated s (walked false 8 (0x300000 + BitVec.ofNat 64 (8 * k)))) ∧ Translated s (copyVas 0x400000 0x500000) ∧
        s.w.fence = none ∧ s.myCluster.hasToken s.w.asid 0 = true ∧
        (e.2 = 32 → copyBad s 0x400000 0x500000 32 = none ∧ s.w.fitsT 6 = true ∧ s.w.fitsS 2 = true)) ∧
    (let s := sw (fun w => { regs [(1, 0x20000000), (2, 1)] w with wait := some (.issued i 0) })
     Waits i 0 s ∧ listWords s 0x20000000 4 = .error (0x07, 0x20000000) ∧ CanTrap s ∧
       ∀ k < 4, Translated s (walked false 8 (0x20000000 + BitVec.ofNat 64 (8 * k)))) ∧
    (∀ n ∈ [62, 63],
      let b : Bulk := { wave := 1, team := 1, asid := 0, sup := true, dst := 0, src := 0, count := 1, bar := none }
      let s := sw (fun w => { w with cmdb := [b, b], wait := some (.issued i 1) })
      let t := s.setMyCluster { s.myCluster with bulk := List.replicate n b }
      Waits i 1 t ∧ Canonical t ∧ (t.myCluster.bulk.length + t.w.cmdb.length ≤ 64 ↔ n = 62)) := by
  intro i
  refine ⟨fun e he => ?_, fun e he => ?_, ⟨⟨rfl, rfl⟩, error_of (by decide +kernel), canTrap_of (by decide +kernel), fun k hk => ?_⟩, fun e he => ?_⟩
  · simp only [List.mem_cons, List.not_mem_nil, or_false] at he
    rcases he with rfl | rfl | rfl | rfl | rfl <;> exact ⟨issues_of (by decide +kernel), canTrap_of (by decide +kernel), by decide +kernel⟩
  · have t : ∀ k < 4, (walked false 8 (0x300000 + BitVec.ofNat 64 (8 * k))).all (fun va => !misses s0 va) = true := by decide +kernel
    simp only [List.mem_cons, List.not_mem_nil, or_false] at he
    rcases he with rfl | rfl <;> exact ⟨⟨rfl, rfl⟩, ok_of (by decide +kernel), canTrap_of (by decide +kernel), onDuty_of (by decide +kernel),
      noWalk_of rfl, canonical_of (by decide +kernel), fun k hk => translated_congr rfl rfl rfl rfl (translated_of (t k hk)),
      translated_of (by decide +kernel), rfl, by decide +kernel, by decide +kernel⟩
  · have t : ∀ k < 4, (walked false 8 (0x20000000 + BitVec.ofNat 64 (8 * k))).all (fun va => !misses s0 va) = true := by decide +kernel
    exact translated_congr rfl rfl rfl rfl (translated_of (t k hk))
  · simp only [List.mem_cons, List.not_mem_nil, or_false] at he
    rcases he with rfl | rfl <;> exact ⟨⟨rfl, rfl⟩, canonical_of (by decide +kernel), by decide +kernel⟩

/-- WDQ in order, and with each of its operands bad; a request not answered, below LIMIT and at it, and an answer on its way. -/
theorem witness_WorkDistributor :
    (∀ e ∈ [((0x300000 : U64), (0 : U64), (8 : U64)), (0x1000000000000000, 0, 8), (0x300008, 0, 8), (0x0FFFFF0000000000, 0, 8), (0x20000000, 0, 8),
        (0x300000, 4, 8), (0x300000, 0, 4)],
      let s := sw (regs [(1, e.1), (2, e.2.1), (3, e.2.2)])
      Issues (.wdq 1 2 3) { deps := [1, 2, 3], ticks := 2, sectors := 1, cls := some 2, vas := walked false 16 e.1 } s ∧ CanTrap s) ∧
    translate s0 0 true Acc.atomic 0x300000 = .ok (.pkg 0x300000) ∧ translate s0 0 true Acc.atomic 0x20000000 = .error 0x07 ∧
    barrierOff s0 8 = .ok 8 ∧ barrierOff s0 4 = .error 0x06 ∧ s0.poisoned 0x300000 = false ∧
    (∀ a ∈ [(none : Option U64), some 7], let q : Wdq := { wave := 1, team := 1, desc := 0x300000, ans := 0, bar := 8, answer := a }
      let s : State := { s0 with wdq := [q], mem := Memory.writeN s0.mem 0x300008 8 1 }
      s.wdq[0]? = some q ∧ s.pkg.failedLinks = [] ∧ s.pkg.service = .running ∧ Memory.wf s.mem = true ∧ s.running (s.team 1).die = true ∧
        (s.team 1).cl.isSome = true ∧ Memory.wf (s.team 1).sp = true ∧ 8 < (s.team 1).kib * 1024 ∧ 1 ∉ (s.team 1).bad ∧
        spWf ({} : Team) 0 s.teams = true ∧ s.poisoned 0x300000 = false ∧ s.w.id = 1 ∧ s.w.isGone = false ∧ s.others = [] ∧
        ({ s with poison := [0x18000] } : State).poisoned 0x300000 = true ∧ Memory.readN s.mem 0x300000 8 < Memory.readN s.mem 0x300008 8) := by
  refine ⟨fun e he => ?_, ok_of (by decide +kernel), error_of (by decide +kernel), ok_of (by decide +kernel), error_of (by decide +kernel), rfl,
    fun a ha => ?_⟩
  · simp only [List.mem_cons, List.not_mem_nil, or_false] at he
    rcases he with rfl | rfl | rfl | rfl | rfl | rfl | rfl <;> exact ⟨issues_of (by decide +kernel), canTrap_of (by decide +kernel)⟩
  · simp only [List.mem_cons, List.not_mem_nil, or_false] at ha
    rcases ha with rfl | rfl <;> decide +kernel

/-! ### Steps of a lane -/

/-- A block of words in lockstep on the 16 VPs at element width code `c`, its first issue step under way for the VPs listed. -/
def laneAt (c : BitVec 2) (ws : List (BitVec 32)) (vps : List Nat) : State :=
  { s0 with w := { fetchWave with cfg := { fetchWave.cfg with ewc := c } }.startRun .lockstep 0x200 0x47040000 ws (List.range 16) (reservation ws 16)
            agent := .lane 0 vps }

/-- `StepIssues` as a test. -/
def stepIssuesB (i : Instr) (g : BGate) (s : State) : Bool :=
  match currentIssue s with
  | none => false
  | some x =>
    decide (s.agent = .lane x.run.id x.vps) &&
    x.vps.all (fun v => match s.w.vp v with | some (.run r p q _ b) => decide (r = x.run.id ∧ p = x.pos ∧ q = x.rep) && !b | _ => false) &&
    decide x.vps.Nodup && s.w.vregs.isEmpty && decide (s.w.vps.Pairwise (fun y z => y.1 < z.1)) && !reservedCode i && !g.xtraBad && !x.run.idem &&
    !(g.cross && x.run.kind.isThread) && (g.allReads ++ g.writes).all (fun r => decide (r < s.w.cfg.nreg)) && !g.bad7 && g.frame.isNone && !g.bad9 &&
    !blockStalls s x g g.useQueue && (lackXin s x g).isEmpty && g.vas.all (fun va => !misses s va) && (operandTrap s x g).isNone && g.late.isNone && decide (dualCase s x = 0)

theorem stepIssues_of {i : Instr} {g : BGate} {s : State} (h : stepIssuesB i g s = true) : ∃ x, currentIssue s = some x ∧ StepIssues i g s x := by
  unfold stepIssuesB at h
  split at h
  · cases h
  · next x hx =>
    simp only [Bool.and_eq_true, Bool.not_eq_true', List.all_eq_true, decide_eq_true_eq, List.isEmpty_iff, Option.isNone_iff_eq_none] at h
    obtain ⟨⟨⟨⟨⟨⟨⟨⟨⟨⟨⟨⟨⟨⟨⟨⟨⟨⟨h1, h2⟩, h3⟩, h4⟩, h5⟩, h6⟩, h7⟩, h8⟩, h9⟩, h10⟩, h11⟩, h12⟩, h13⟩, h14⟩, h15⟩, h19⟩, h16⟩, h17⟩, h18⟩ := h
    refine ⟨x, hx, h1, hx, fun v hv => ?_, h3, regsOk_nil h4, h5, h6, h7, fun hi => ?_, fun hc => ?_, h10, h11, h12, h13, h14, h15,
      fun va hva => h19 va hva, h16, h17, h18⟩
    · have hb := h2 v hv
      cases hs : s.w.vp v with
      | none => rw [hs] at hb; cases hb
      | some y =>
        rw [hs] at hb
        cases y with
        | run r p q tg b =>
          simp only [Bool.and_eq_true, decide_eq_true_eq, Bool.not_eq_true'] at hb
          obtain ⟨⟨rfl, rfl, rfl⟩, rfl⟩ := hb
          exact ⟨tg, rfl⟩
        | _ => cases hb
    · rw [h8] at hi; cases hi
    · rw [hc] at h9; simpa using h9

/-- Every integer form issues, for VPs 3 and 15 with and without mask, ws 1 among them. -/
theorem witness_IntegerElements : ∀ e ∈ [(Instr.vaddI 1 1 0 2 3, elementGate 1 1 0 [2, 3] false false), (.vaddiI 0 31 0 2 0xC0, elementGate 0 31 0 [2] false false),
      (.vsubI 0 0 1 2 3, elementGate 0 0 1 [2, 3] false false), (.vmulI 0 1 0 2 3, elementGate 0 1 0 [2, 3] false false),
      (.vmacI 0 1 1 2 3, elementGate 0 1 1 [2, 3] true false), (.vminI 0 1 0 2 3, elementGate 0 1 0 [2, 3] false false),
      (.vmaxI 0 1 0 2 3, elementGate 0 1 0 [2, 3] false false), (.vminIs 0 1 0 2 3, elementGate 0 1 0 [2, 3] false false),
      (.vmaxIs 0 1 0 2 3, elementGate 0 1 0 [2, 3] false false), (.vand 0 1 0 2 0x50, elementGate 0 1 0 [2, 0x50] false false),
      (.vandi 0 1 0 2 0xFF, elementGate 0 1 0 [2] false false), (.vor 0 1 0 2 3, elementGate 0 1 0 [2, 3] false false),
      (.vxor 0 1 0 2 3, elementGate 0 1 0 [2, 3] false false), (.vshl 0 1 0 2 3, elementGate 0 1 0 [2, 3] false false),
      (.vshli 0 1 0 2 32, elementGate 0 1 0 [2] false false), (.vshr 0 1 0 2 3, elementGate 0 1 0 [2, 3] false false),
      (.vshri 0 1 0 2 31, elementGate 0 1 0 [2] false false), (.vshrA 0 1 0 2 3, elementGate 0 1 0 [2, 3] false false),
      (.vshriA 0 1 0 2 31, elementGate 0 1 0 [2] false false), (.vmovi 0 1 0 0x80, elementGate 0 1 0 [] false false),
      (.vmov 0 1 0 0x48, elementGate 0 1 0 [0x48] false false), (.viota 0 1 0, elementGate 0 1 0 [] false false),
      (.vsel 1 0 2 3, elementGate 0 1 0 [2, 3] false false)],
    ∃ x, StepIssues e.1 e.2 (lane (wordOf e.1) [3, 15]) x := by
  intro e he
  simp only [List.mem_cons, List.not_mem_nil, or_false] at he
  rcases he with rfl | rfl | rfl | rfl | rfl | rfl | rfl | rfl | rfl | rfl | rfl | rfl | rfl | rfl | rfl | rfl | rfl | rfl | rfl | rfl | rfl | rfl | rfl <;>
    exact (stepIssues_of (by decide +kernel)).imp fun _ h => h.2

/-- Every floating form issues at the element width of its format. -/
theorem witness_FloatingElements :
    (∀ e ∈ [(Instr.vaddF32 1 1 0 2 3, elementGate 1 1 0 [2, 3] false false), (.vsubF32 0 1 0 2 3, elementGate 0 1 0 [2, 3] false false),
        (.vmulF32 0 1 0 2 3, elementGate 0 1 0 [2, 3] false false), (.vfmaF32 0 1 1 2 3, elementGate 0 1 1 [2, 3] true false),
        (.vfmsF32 0 1 0 2 3, elementGate 0 1 0 [2, 3] true false), (.vdivF32 0 1 0 2 3, elementGate 0 1 0 [2, 3] false false),
        (.vminF32 0 1 0 2 3, elementGate 0 1 0 [2, 3] false false), (.vmaxF32 0 1 0 2 3, elementGate 0 1 0 [2, 3] false false),
        (.vsqrtF32 0 1 0 2, elementGate 0 1 0 [2] false false), (.vexp2 0 1 0 2, elementGate 0 1 0 [2] false false),
        (.vrcp 0 1 0 2, elementGate 0 1 0 [2] false false), (.vcvt 0 1 0 2 0 4, elementGate 0 1 0 [2] false false),
        (.vaddc 0 2 0 4 5, { elementGate 0 2 0 [4, 5] false false with writes := [2, 3] }),
        (.vaddc 0 0 1 4 5, { elementGate 0 0 1 [4, 5] false false with writes := [] }),
        (.vcmpI 0 7 6 2 3, elementGate 0 0 1 [2, 3] false false), (.vcmpiI 1 0 4 2 0xFF, elementGate 1 0 1 [2] false false),
        (.vcmpF32 0 1 0 2 3, elementGate 0 0 1 [2, 3] false false)], ∃ x, StepIssues e.1 e.2 (laneAt 2 [wordOf e.1] [3, 15]) x) ∧
    (∀ e ∈ [(Instr.vaddF16 0 1 0 2 3, elementGate 0 1 0 [2, 3] false false), (.vaddE8m7 0 1 0 2 3, elementGate 0 1 0 [2, 3] false false),
        (.vsubF16 0 1 0 2 3, elementGate 0 1 0 [2, 3] false false), (.vsubE8m7 0 1 0 2 3, elementGate 0 1 0 [2, 3] false false),
        (.vmulF16 0 1 0 2 3, elementGate 0 1 0 [2, 3] false false), (.vmulE8m7 0 1 0 2 3, elementGate 0 1 0 [2, 3] false false),
        (.vfmaF16 0 1 0 2 3, elementGate 0 1 0 [2, 3] true false), (.vfmaE8m7 0 1 0 2 3, elementGate 0 1 0 [2, 3] true false),
        (.vminF16 0 1 0 2 3, elementGate 0 1 0 [2, 3] false false), (.vminE8m7 0 1 0 2 3, elementGate 0 1 0 [2, 3] false false),
        (.vmaxF16 0 1 0 2 3, elementGate 0 1 0 [2, 3] false false), (.vmaxE8m7 0 1 0 2 3, elementGate 0 1 0 [2, 3] false false),
        (.vcmpF16 0 1 0 2 3, elementGate 0 0 1 [2, 3] false false), (.vcmpE8m7 0 1 2 2 3, elementGate 0 0 1 [2, 3] false false)],
      ∃ x, StepIssues e.1 e.2 (laneAt 1 [wordOf e.1] [3, 15]) x) := by
  refine ⟨fun e he => ?_, fun e he => ?_⟩ <;> simp only [List.mem_cons, List.not_mem_nil, or_false] at he
  · rcases he with rfl | rfl | rfl | rfl | rfl | rfl | rfl | rfl | rfl | rfl | rfl | rfl | rfl | rfl | rfl | rfl | rfl <;>
      exact (stepIssues_of (by decide +kernel)).imp fun _ h => h.2
  · rcases he with rfl | rfl | rfl | rfl | rfl | rfl | rfl | rfl | rfl | rfl | rfl | rfl | rfl | rfl <;>
      exact (stepIssues_of (by decide +kernel)).imp fun _ h => h.2

/-- Every cross-element form issues for the whole block. -/
theorem witness_CrossElements :
    let gate (ws : BitVec 1) (l : List (BitVec 8)) : BGate := { elementGate 0 1 ws l false false with cross := true }
    (∀ e ∈ [(Instr.vperm 0 1 0 2 3, { gate 0 [2, 3] with readAll := true }), (.vcompress 0 1 2, gate 0 [2]), (.vnzscan 0 1 2 1, gate 0 [2]),
        (.vred 0 1 2 14, gate 0 [2]), (.vscan 0 1 2 0, gate 0 [2]), (.bmand 0 1 0 2 3, gate 0 [2, 3]), (.bmpos 0 1 0 2 3, gate 0 [2, 3])],
      (e.1 = .vred 0 1 2 14 → True) ∧ ∃ x, currentIssue (laneAt 1 [wordOf e.1] (List.range 16)) = some x ∧
        StepIssues e.1 e.2 (laneAt 1 [wordOf e.1] (List.range 16)) x) ∧
    badReduction 16 14 = false ∧ (List.range 16).Pairwise (· < ·) := by
  intro gate
  refine ⟨fun e he => ⟨fun _ => trivial, ?_⟩, rfl, by decide⟩
  simp only [List.mem_cons, List.not_mem_nil, or_false] at he
  rcases he with rfl | rfl | rfl | rfl | rfl | rfl | rfl <;> exact stepIssues_of (by decide +kernel)

/-- THFETCH, VPSTOP, VXSEND and VSPAWN issue; REPF with a frame in order, past the block, and with a word in it of each kind that it refuses;
an offer whose header can be read. -/
theorem witness_BlockControl :
    (∀ e ∈ [(Instr.thfetch 0 0x7FF, ({ m := 0 } : BGate)), (.thfetchReg 1 31 2, { m := 1, srcs := [2], deps := [31] }), (.vpstop 0, { m := 0 }),
        (.vxsend 0 2, { m := 0, srcs := [2], idemBad := true, qseg := true })], ∃ x, StepIssues e.1 e.2 (laneAt 2 [wordOf e.1] [15]) x) ∧
    (∃ x, StepIssues (.repf 3 1 0) {} (laneAt 2 [wordOf (.repf 3 1 0), wordOf (.vaddI 0 1 0 2 3)] [15]) x) ∧
    (∀ w ∈ [wordOf (.vaddI 0 31 0 2 3), 0x00000000, wordOf (.vpstop 0), wordOf (.vmov 0 1 0 0x44), wordOf (.vaddI 0 1 0 2 3)],
      ∃ x, currentIssue (laneAt 2 [wordOf (.repf 3 1 0), w] [15]) = some x ∧ encode (.repf 3 1 0) = some x.word) ∧
    (frameRegsBad 32 3 1 (wordOf (.vaddI 0 31 0 2 3)) = true ∧ decodeWord 0 = none) ∧
    (∃ x, StepIssues (.vspawn 0 7 2 3) { m := 0, srcs := [2, 3], idemBad := true } (laneAt 3 [wordOf (.vspawn 0 7 2 3)] (List.range 16)) x) ∧
    (let s := withHeader 1 (sw (fun w => { w with offers := some ⟨7, 0, 0, [15], [(15, 0x300000, 5)]⟩ }))
     OnDuty s ∧ headerReady s = true ∧ s.w.wait = none ∧ Canonical s ∧ LinksUp s ∧ Translated s (walked false 64 0x300000) ∧ NoWalk s 2 ∧ headerAt s 0x300000 = .ok (.pkg 0x300000, { dw3 := 1, dw6 := 0x100000001 })) := by
  refine ⟨fun e he => ?_, (stepIssues_of (by decide +kernel)).imp fun _ h => h.2, fun w hw => ?_, by decide +kernel,
    (stepIssues_of (by decide +kernel)).imp fun _ h => h.2, onDuty_of (by decide +kernel), by decide +kernel, rfl, canonical_of (by decide +kernel),
    rfl, translated_of (by decide +kernel), noWalk_of rfl, ok_of (by decide +kernel)⟩
  · simp only [List.mem_cons, List.not_mem_nil, or_false] at he
    rcases he with rfl | rfl | rfl | rfl <;> exact (stepIssues_of (by decide +kernel)).imp fun _ h => h.2
  · simp only [List.mem_cons, List.not_mem_nil, or_false] at hw
    rcases hw with rfl | rfl | rfl | rfl | rfl <;> exact ⟨_, rfl, by decide +kernel⟩

/-! ### Events -/

/-- `withBlock`, with the block's words in lane 0's cache. -/
def inLane (s : State) : State :=
  let t := withBlock s
  t.setMyCluster { t.myCluster with tcache := [(0, t.myCluster.icache)] }

/-- A block in the thread state at an address, of one frontier entry, for VP 15. -/
def threaded (a : U64) (f : Wave → Wave) : State :=
  inLane (sw (fun w => f { w with vps := [(15, .thread a)], frontier := [{ prio := 0, addr := a }] }))

/-- A run of a lane's entry, with its VPs as given. -/
def runOf (l : List (Nat × VpSt)) (k : RunKind) (susp : Bool) : State :=
  sw (fun w => { w with
    runs := [{ id := 0, kind := k, addr := 0x300000, words := [wordOf (.vmov 0 1 0 0x44)], suspended := susp, vps := l.map Prod.fst }]
    vps := l })

theorem laneIdle_of {s : State} {j : Nat} (h : (s.running s.w.die && s.w.isResident && s.w.active && !s.w.trp.inh && !s.w.saveFault && !s.w.frozen &&
    s.w.doubleCause.isNone && s.w.traps.all (fun t => decide (t.src = 3)) && decide (j < s.w.lanes) && !s.w.laneBusy j && !laneTaken s j &&
    (List.range j).all (fun i => !startsNow s i)) = true) : LaneIdle s j := by
  simp only [Bool.and_eq_true, Bool.not_eq_true', List.all_eq_true, decide_eq_true_eq, List.mem_range, Option.isNone_iff_eq_none] at h
  obtain ⟨⟨⟨⟨⟨⟨⟨⟨⟨⟨⟨h1, h2⟩, h3⟩, h4⟩, h5⟩, h6⟩, h7⟩, h8⟩, h9⟩, h10⟩, h11⟩, h12⟩ := h
  exact ⟨⟨h1, h2⟩, h3, h4, h5, h6, h7, h8, h9, h10, h11, h12⟩

/-- What the start of a block by lane 0 asks beside the VPs. -/
def lane0Free (s : State) : Prop := LaneIdle s 0 ∧ MayBegin s ∧ awaitBlock 2 (s.ownLane 0) 0x300000 s = none ∧ NoWalk s 2

theorem lane0Free_threaded {s : State} (h : s.myCluster.misses.isEmpty = true)
    (h2 : (s.running s.w.die && s.w.isResident && s.w.active && !s.w.trp.inh && !s.w.saveFault && !s.w.frozen &&
    s.w.doubleCause.isNone && s.w.traps.all (fun t => decide (t.src = 3)) && decide (0 < s.w.lanes) && !s.w.laneBusy 0 && !laneTaken s 0 &&
    (List.range 0).all (fun i => !startsNow s i)) = true)
    (h3 : (!s.w.ctl.incont && !s.w.bud.preempt && !s.w.departing) = true) (h4 : (awaitBlock 2 (s.ownLane 0) 0x300000 s).isNone = true) :
    lane0Free s := by
  simp only [Bool.and_eq_true, Bool.not_eq_true'] at h3
  exact ⟨laneIdle_of h2, ⟨h3.1.1, h3.1.2, h3.2⟩, Option.isNone_iff_eq_none.1 h4, noWalk_of h⟩

/-- A lane starts the block of its entry where the budget holds its reservation and where it does not, and finds none at another address and
at one without rights; the serial VP and a starving entry; a suspended entry goes on and a blocked one is suspended. -/
theorem witness_LaneAndSpillEvents_starts :
    (∀ b ∈ [(0x10000 : U64), 0], let s := threaded 0x300000 (fun w => { w with bud := { w.bud with ibgt := b } })
      lane0Free s ∧ s.w.ctl.serial = false ∧ s.w.suspendedRun 0 0x300000 = none ∧ s.w.dbg.vps = [] ∧
      (∃ h ws, namedBlockIn (s.cacheOf (s.ownLane 0)) s 0x300000 = .ok (h, ws)) ∧
      (s.w.fitsT (reservation [wordOf (.vmovi 0 1 0 5)] 1).1 = true ↔ b = 0x10000)) ∧
    (let s := threaded 0x20000000 id
     LaneIdle s 0 ∧ MayBegin s ∧ awaitBlock 2 (s.ownLane 0) 0x20000000 s = none ∧ NoWalk s 2 ∧
       namedBlockIn (s.cacheOf (s.ownLane 0)) s 0x20000000 = .error (0x07, 0x20000000)) ∧
    (let s : State := { threaded 0x300000 id with poison := [0x300000 / 32], clusters := (sw id).clusters }
     LaneIdle s 0 ∧ MayBegin s ∧ namedBlockIn (s.cacheOf (s.ownLane 0)) s 0x300000 = .error (0x0F, 0x300000)) ∧
    (let s := threaded 0x300000 (fun w => { w with ctl := { w.ctl with serial := true }, frontier := [] })
     lane0Free s ∧ s.w.ctl.serial = true ∧ s.w.serialVp = none ∧ s.w.serialList.head? = some 15 ∧ s.w.vp 15 = some (.thread 0x300000) ∧ 15 ∉ s.w.dbg.vps) ∧
    (let s := runOf [(15, .run 0 0 0 none false)] (.thread 0) true
     let t : State := { s with w := { s.w with frontier := [{ prio := 0, addr := 0x300000 }] } }
     LaneIdle t 0 ∧ t.w.frontier[(0 : BitVec 4).toNat]? = some { prio := 0, addr := 0x300000 } ∧ (∃ r, t.w.suspendedRun 0 0x300000 = some r)) ∧
    (let s := runOf [(15, .run 0 0 0 none true)] (.thread 0) false
     OnDuty s ∧ ∃ r, s.w.runs.find? (s.w.stuckOn 0) = some r) := by
  refine ⟨fun b hb => ?_, ⟨laneIdle_of (by decide +kernel), ⟨rfl, rfl, by decide +kernel⟩, by decide +kernel, noWalk_of rfl, error_of (by decide +kernel)⟩,
    ⟨laneIdle_of (by decide +kernel), ⟨rfl, rfl, by decide +kernel⟩, error_of (by decide +kernel)⟩,
    ⟨lane0Free_threaded rfl (by decide +kernel) (by decide +kernel) (by decide +kernel), rfl, rfl, by decide +kernel, by decide +kernel, by decide +kernel⟩,
    ⟨laneIdle_of (by decide +kernel), rfl, Option.isSome_iff_exists.1 (by decide +kernel)⟩,
    ⟨onDuty_of (by decide +kernel), Option.isSome_iff_exists.1 (by decide +kernel)⟩⟩
  simp only [List.mem_cons, List.not_mem_nil, or_false] at hb
  rcases hb with rfl | rfl <;>
    exact ⟨lane0Free_threaded rfl (by decide +kernel) (by decide +kernel) (by decide +kernel), rfl, by decide +kernel, rfl,
      (exists_ok (e := namedBlockIn _ _ _) (by decide +kernel)).imp' (fun p => p.1) (fun p hp => ⟨p.2, hp⟩), by decide +kernel⟩

/-- VPs at the end of their block without a target, with one, and with one that holds no block or may not be read; deadlocks of the queues in
VCATCH, for a place in the queue, for a scalar that an entry delivers and in VXTAKE. -/
theorem witness_LaneAndSpillEvents_ends :
    (∀ tg ∈ [(none : Option (U64 × Nat)), some (0x300000, 1), some (0x200000, 1), some (0x20000000, 1)], ∀ l ∈ [([] : List (Nat × VpSt)), [(14, .run 0 0 0 none false)]],
      let x := withBlock (runOf (l ++ [(15, .run 0 1 0 tg false)]) .lockstep false)
      let s := x.setMyCluster { x.myCluster with icache := (0x200000, BitVec.ofNat 32 (Memory.readN x.mem 0x200000 4)) :: x.myCluster.icache }
      OnDuty s ∧ s.w.trp.inh = false ∧ s.w.vp 15 = some (.run 0 1 0 tg false) ∧ (∃ r, s.w.run? 0 = some r ∧ r.words.length ≤ 1) ∧
        s.w.offers = none ∧ s.w.vps.Pairwise (fun y z => y.1 < z.1) ∧ s.w.ending.find? (fun u => (endWaits s u).isNone) = some 15 ∧
        NoWalk s (2 + 15 % s.w.lanes) ∧
        (∃ h, checkHeader s 0x300000 = .ok h) ∧ checkHeader s 0x200000 = .error 0x13 ∧ checkHeader s 0x20000000 = .error 0x07) ∧
    (∀ e ∈ [(Wait.issued (.vcatch 1) 0, ([] : List QEntry)), (.stall .queue, List.replicate 32 { word := 0, pc := 0 }),
        (.stall (.scalar 1), [{ word := wordOf (.vsetvl 1 2 0), pc := 0 }]), (.issued (.vxtake 1) 0, [])],
      let s := runOf [(14, .parked 0), (15, .run 0 0 0 none true)] .lockstep false
      let t : State := { s with w := { s.w with wait := some e.1, vq := e.2 } }
      mayTrap t = true ∧ (∃ v ∈ t.w.vps, v.2.isBlocked = true) ∧ t.w.unblocks 15 = false ∧ t.w.queued = e.2.length ∧
        t.w.boundary takeBnd = [] ∧ t.w.qseg ≠ .spilled) ∧
    queueDest (wordOf (.vsetvl 1 2 0)) = some 1 ∧
    (let s := sw (fun w => { w with wait := some (.issued (.vxtake 1) 0) })
     mayTrap s = true ∧ s.w.boundary takeBnd = [] ∧ s.w.qseg ≠ .spilled ∧ s.w.quiescent = true ∧ s.w.vq = [] ∧ s.w.fetches = []) := by
  refine ⟨fun tg htg l hl => ?_, fun e he => ?_, by decide +kernel, by decide +kernel⟩
  · simp only [List.mem_cons, List.not_mem_nil, or_false] at htg hl
    rcases htg with rfl | rfl | rfl | rfl <;> rcases hl with rfl | rfl <;> exact ⟨onDuty_of (by decide +kernel), rfl, rfl, ⟨_, rfl, by decide⟩, rfl,
      by decide +kernel, by decide +kernel, noWalk_of rfl, exists_ok (by decide +kernel), error_of (by decide +kernel), error_of (by decide +kernel)⟩
  · simp only [List.mem_cons, List.not_mem_nil, or_false] at he
    rcases he with rfl | rfl | rfl | rfl <;> exact ⟨by decide +kernel, by decide +kernel, by decide +kernel, by decide +kernel, by decide +kernel, by decide +kernel⟩

/-- A spill of a mate's register for 128 segments, and refills of a register from memory and from an address without rights. -/
theorem witness_LaneAndSpillEvents_pool :
    (let m : Wave := { mate s0.w with vregs := [(3, { st := .live, tag := 16, elems := [(15, 7)] })] }
     let s : State := { sw (fun w => { w with segNeed := 128 }) with others := [m] }
     OnDuty s ∧ poolHas s (segsWanted s.w) = false ∧ (∃ vic, victimWave s = some vic ∧ victimReg vic = some 3 ∧ vic.id = 2 ∧
       spWf ({} : VReg) 0 vic.vregs = true) ∧ LinksUp s ∧
       (∃ x, spillOwn (s.focus 2) 3 = .ok x) ∧ (s.waves.map Wave.id).Nodup ∧
       (match spillOwn (s.focus 2) 3 with
        | .ok x => poolHas ((x.setMyCluster { x.myCluster with spills := x.myCluster.spills + 1 }).focus s.w.id) (segsWanted s.w)
        | .error _ => false) = true) ∧
    (∀ b ∈ [(0x400000 : U64), 0x20000000],
      let s0' := sw (fun w => { w with vregs := [(3, { st := .spilled, tag := 16 })], want := [3] })
      let s := s0'.setTeam 1 { s0'.myTeam with base := b }
      OnDuty s ∧ 3 ∈ s.w.want ∧ (s.w.reg 3).st = .spilled ∧ canAlloc s (refillSegs s.w 3) = true ∧ s.w.spillBad = false ∧ LinksUp s ∧
        spWf ({} : VReg) 0 s.w.vregs = true ∧
        (b = 0x400000 → ∃ p, spanPas s Acc.load (s.saveArea + 0x40000) 64 = .ok p) ∧
        (b = 0x20000000 → ∃ e, spanPas s Acc.load (s.saveArea + 0x40000) 64 = .error e)) := by
  refine ⟨⟨onDuty_of (by decide +kernel), by decide +kernel, ⟨_, rfl, by decide +kernel, by decide +kernel, by decide +kernel⟩, rfl, exists_ok (by decide +kernel),
    by decide +kernel, by decide +kernel⟩, fun b hb => ?_⟩
  simp only [List.mem_cons, List.not_mem_nil, or_false] at hb
  rcases hb with rfl | rfl <;> refine ⟨onDuty_of (by decide +kernel), by decide +kernel, by decide +kernel, by decide +kernel, rfl, rfl, by decide +kernel, fun h => ?_, fun h => ?_⟩ <;>
    first
      | exact absurd h (by decide)
      | exact exists_ok (by decide +kernel)
      | exact ⟨_, error_of (a := (0x07, 0x20040000)) (by decide +kernel)⟩

/-- Pending traps of each source; a double trap whose context can be written; a pre-emption request in and out of a handler, with a synchronous
trap pending, with no block, and with one that drains, that is flushed, that is stopped and that the debugger holds. -/
theorem witness_TrapsAndForcedEntry_requests :
    (∀ s ∈ [1, 2, 3], ∀ x ∈ [(none : Option Wait), some (.stall .queue)], let p : PTrap := { src := s, cause := 0x05, iw := 1, vp := 3, val := 7 }
      let m := sw (fun w => { w with traps := [p], wait := x })
      OnDuty m ∧ m.w.doubleCause = none ∧ m.w.saveFault = false ∧ m.w.atBoundary = true ∧ CanTrap m ∧ m.w.frozen = false ∧ m.w.leaving = false ∧
        p ∈ m.w.traps ∧ NoneEnding m) ∧
    (let s := pair (fun w => { w with doubleCause := some (0x05, 7) })
     OnDuty s ∧ s.w.doubleCause = some (0x05, 7) ∧ s.w.saveFault = false ∧ NothingOpen s ∧ s.w.replies = [] ∧ s.w.markers = [] ∧ s.w.offers = none ∧
       s.w.fence = none ∧ LinksUp s ∧ ∃ s1, saveContext { s with w := { s.w with bud := { s.w.bud with remT := s.w.bud.ibgt, remS := s.w.bud.mbgt } } } s.w.pc = .ok s1) ∧
    (let sent (f : Wave → Wave) : State := sw (fun w => f { w with bud := { w.bud with preemptSent := true } })
     (∀ f ∈ [inHandler, (fun w => { w with traps := [{ src := 1, cause := 5 }] }), fun w => { w with traps := [{ src := 3, cause := 5 }] }, id],
       OnDuty (sent f) ∧ (sent f).w.bud.preemptSent = true ∧ (sent f).w.runs = []) ∧
     (sent inHandler).w.trp.inh = true ∧ (sent id).w.trp.inh = false ∧ (sent id).w.traps = []) ∧
    (let run (idem : Bool) (word : Instr) (st : Bool) : State :=
       let r : Run := { id := 0, kind := .lockstep, addr := 0x300000, words := [wordOf word], idem := idem, total := 16, vps := [15] }
       sw (fun w => { w with
         runs := [r], vps := [(15, .run 0 0 0 none false)], bud := { w.bud with preemptSent := true }, dbg := { w.dbg with stopped := st } })
     let drains (s : State) (r : Run) : Bool := (List.range s.w.lanes).all (fun j => decide (s.w.stepsLeft r j ≤ 16)) && !s.w.noDrain r
     ∀ e ∈ [(false, Instr.vmovi 0 1 0 5, false, true, false), (true, .vmov 0 1 0 0x44, false, false, true), (false, .vmov 0 1 0 0x44, false, false, false),
         (true, .vmovi 0 1 0 5, true, true, true)],
       let s := run e.1 e.2.1 e.2.2.1
       OnDuty s ∧ s.w.bud.preemptSent = true ∧ s.w.trp.inh = false ∧ s.w.traps = [] ∧ ∃ r, s.w.runs = [r] ∧ r.stopped = false ∧
         s.w.debugHolds r = e.2.2.1 ∧ drains s r = e.2.2.2.1 ∧ (decide (r.idem = true ∧ 2 * r.steps < r.total)) = e.2.2.2.2) := by
  refine ⟨fun s hs x hx => ?_, ⟨onDuty_of (by decide +kernel), rfl, rfl, nothingOpen_of (by decide +kernel), rfl, rfl, rfl, rfl, rfl, exists_ok (by decide +kernel)⟩,
    ⟨fun f hf => ?_, rfl, rfl, rfl⟩, fun e he => ?_⟩
  · simp only [List.mem_cons, List.not_mem_nil, or_false] at hs hx
    rcases hs with rfl | rfl | rfl <;> rcases hx with rfl | rfl <;>
      exact ⟨onDuty_of (by decide +kernel), rfl, rfl, rfl, canTrap_of (by decide +kernel), rfl, by decide +kernel, List.mem_singleton.2 rfl,
        fun e he => (List.not_mem_nil he).elim⟩
  · simp only [List.mem_cons, List.not_mem_nil, or_false] at hf
    rcases hf with rfl | rfl | rfl | rfl <;> exact ⟨onDuty_of (by decide +kernel), rfl, rfl⟩
  · simp only [List.mem_cons, List.not_mem_nil, or_false] at he
    rcases he with rfl | rfl | rfl | rfl <;> exact ⟨onDuty_of (by decide +kernel), rfl, rfl, rfl, _, rfl, rfl, by decide +kernel, by decide +kernel, by decide +kernel⟩

/-- Forced entry with a continuation, without one and in one, from an instruction, a stall and a fence in its ordering wait; the grace timer;
the save that follows it and the one that is ready; a handler's limit with each cause. -/
theorem witness_TrapsAndForcedEntry_saves :
    (let calm (s : State) : Bool := s.w.doubleCause.isNone && !s.w.saveFault && s.w.atBoundary
     let cont (w : Wave) : Wave := { w with hdr := { w.hdr with dw7 := 0x380000 } }
     let in' (w : Wave) : Wave := { w with ctl := { w.ctl with incont := true } }
     (∀ f ∈ [id, cont, in'], ∀ x ∈ [(none : Option Wait), some (.stall .queue), some (.issued (.fence 4 1) 1)],
       ∀ b ∈ [(fun w => { w with bud := { w.bud with exhaust := some 0x20 } } : Wave → Wave), fun w => { w with bud := { w.bud with preempt := true } }],
       let s := sw (fun w => b (f { w with wait := x }))
       OnDuty s ∧ calm s = true ∧ s.w.trp.inh = false ∧ s.w.departing = false ∧ s.w.traps = [] ∧ s.w.wait = x ∧ LinksUp s ∧ s.w.runs = [] ∧
         s.w.frozen = false) ∧
     contEntry (sw cont) = some 0 ∧ contEntry s0 = none ∧ isFence (.fence 4 1) = true ∧
     (∀ g ∈ [(fun w => { w with bud := { w.bud with grace := true } } : Wave → Wave), fun w => { w with bud := { w.bud with graceHit := true } }],
       let s := sw (fun w => g (in' w))
       OnDuty s ∧ calm s = true ∧ s.w.ctl.incont = true ∧ s.w.trp.inh = false ∧ s.w.departing = false ∧ s.w.traps = [] ∧ s.w.anyStopped = false) ∧
     (∀ g ∈ [(fun w => { w with bud := { w.bud with graceHit := true } } : Wave → Wave), (fun w => { w with bud := { w.bud with preempt := true } }),
         fun w => { w with bud := { w.bud with exhaust := some 0x21 } }],
       let s := sw (fun w => g (inHandler w))
       OnDuty s ∧ s.w.trp.inh = true ∧ s.w.departing = false ∧ s.w.doubleCause = none ∧ s.w.atBoundary = true ∧ s.w.anyStopped = false ∧
         (s.w.bud.preempt = true ∨ s.w.bud.exhaust ≠ none ∨ s.w.bud.graceHit = true))) ∧
    (let s := pair (fun w => { w with leaving := true, savePc := 0x100000 })
     OnDuty s ∧ s.w.leaving = true ∧ s.w.saveFault = false ∧ s.w.runs = [] ∧ s.w.vps = [] ∧ NothingOpen s ∧ s.w.replies = [] ∧ s.w.markers = [] ∧
       s.w.offers = none ∧ s.w.fence = none ∧ LinksUp s ∧ (∃ w ∈ s.others, w.team = s.w.team ∧ w.isResident = true) ∧
       ∃ s1, saveContext { s with w := { s.w with
          traps := s.w.traps.filter (fun q => q.src == 3)
          bud := { s.w.bud with remT := s.w.bud.ibgt, remS := s.w.bud.mbgt } } } s.w.savePc = .ok s1) := by
  refine ⟨⟨fun f hf x hx b hb => ?_, by decide +kernel, by decide +kernel, rfl, fun g hg => ?_, fun g hg => ?_⟩,
    ⟨onDuty_of (by decide +kernel), rfl, rfl, rfl, rfl, nothingOpen_of (by decide +kernel), rfl, rfl, rfl, rfl, rfl,
      ⟨mate s0.w, List.mem_singleton.2 rfl, rfl, rfl⟩, exists_ok (by decide +kernel)⟩⟩
  · simp only [List.mem_cons, List.not_mem_nil, or_false] at hf hx hb
    rcases hf with rfl | rfl | rfl <;> rcases hx with rfl | rfl | rfl <;> rcases hb with rfl | rfl <;>
      exact ⟨onDuty_of (by decide +kernel), by decide +kernel, rfl, by decide +kernel, rfl, rfl, rfl, rfl, rfl⟩
  · simp only [List.mem_cons, List.not_mem_nil, or_false] at hg
    rcases hg with rfl | rfl <;> exact ⟨onDuty_of (by decide +kernel), by decide +kernel, rfl, rfl, by decide +kernel, rfl, rfl⟩
  · simp only [List.mem_cons, List.not_mem_nil, or_false] at hg
    rcases hg with rfl | rfl | rfl <;> exact ⟨onDuty_of (by decide +kernel), rfl, by decide +kernel, rfl, by decide +kernel, rfl, by decide +kernel⟩

/-- A waiting active wave and its ready mate; a ready wave with a free slot and with eight active ones; waves that starve; a queued team that fits
cluster 0 alone of its die; a quad that powers up. -/
theorem witness_SchedulerEvents :
    (∀ x ∈ [Wait.issued (.bwait 0 1) 0, .stall .fence],
     let p : Wave := { mate s0.w with active := false }
     let s : State := { sw (fun w => { w with wait := some x, fence := some (.fence 4 1) }) with others := [p] }
     OnDuty s ∧ (s.waves.map Wave.id).Nodup ∧ s.w.active = true ∧ (longDep s = true ∨ otherStall s = true) ∧ NextIn s p) ∧
    (∀ n ∈ [7, 8], let s : State := { sw (fun w => { w with active := false, bud := { w.bud with preemptSent := true } }) with
        others := (List.range n).map (fun k => { mate s0.w with id := k + 2, stamp := k + 1, active := true }) }
      OnDuty s ∧ (s.waves.map Wave.id).Nodup ∧ isReady s = true ∧ s.w.urgent = true ∧ NextIn s s.w ∧ (activeWaves s).length = n ∧
        ∃ d, Weakest s d) ∧
    (let s := { lane 0x47040000 [3] with agent := .control }
     OnDuty s ∧ s.w.active = true ∧ s.w.nextVp 0 ≠ none ∧ laneTaken s 0 = false) ∧
    (let l : Launch := { hdr := { dw3 := 1, dw6 := 0x100000001 }, arg := 7, depth := 0, limit := 0, asid := 0 }
     let s : State := { s0 with dies := [(0, { encl := 1, trapvec := 1, tasks := [l] })] }
     s.running 0 = true ∧ Canonical s ∧ (s.die 0).tasks = [l] ∧ l.hdr.cls < 4 ∧ teamFits s 0 l.hdr 0 = true ∧ (firstQuota s 0 0 l.hdr).isSome = true ∧
       (laneGroup s 0 0 (2 ^ l.hdr.log2l)).isSome = true ∧ ∀ w ∈ s.waves, w.isSaved = true → w.die ≠ 0) ∧
    (let s := s0.setMyCluster { s0.myCluster with qpend := 0x8 }
     s.hasCluster 0 0 = true ∧ Canonical s ∧ (s.cluster 0 0).qpend.getLsbD 3 = true) := by
  refine ⟨fun x hx => ?_, fun n hn => ?_, ⟨onDuty_of (by decide +kernel), rfl, by decide +kernel, by decide +kernel⟩,
    ⟨by decide +kernel, canonical_of (by decide +kernel), by decide +kernel, by decide +kernel, by decide +kernel, by decide +kernel, by decide +kernel, by decide +kernel⟩,
    by decide +kernel, canonical_of (by decide +kernel), by decide +kernel⟩
  · simp only [List.mem_cons, List.not_mem_nil, or_false] at hx
    rcases hx with rfl | rfl <;>
      exact ⟨onDuty_of (by decide +kernel), by decide +kernel, rfl, by decide +kernel, by decide +kernel, by decide +kernel, by decide +kernel⟩
  · simp only [List.mem_cons, List.not_mem_nil, or_false] at hn
    rcases hn with rfl | rfl
    · exact ⟨onDuty_of (by decide +kernel), by decide +kernel, by decide +kernel, by decide +kernel, ⟨by decide +kernel, by decide +kernel, by decide +kernel⟩,
        by decide +kernel, { mate s0.w with id := 8, stamp := 7, active := true }, by decide +kernel, by decide +kernel⟩
    · exact ⟨onDuty_of (by decide +kernel), by decide +kernel, by decide +kernel, by decide +kernel, ⟨by decide +kernel, by decide +kernel, by decide +kernel⟩,
        by decide +kernel, { mate s0.w with id := 9, stamp := 8, active := true }, by decide +kernel, by decide +kernel⟩

/-- Requests to memory, the scratchpad and a window that are free to go, and one to a poisoned sector; walks that end at a leaf and in a fault;
words that arrive for a block and for a lane, of a sound and of a poisoned sector; a sector that leaves L1 and a bucket that fills. -/
theorem witness_MemoryEvents_home :
    (∀ g ∈ [Target.pkg 0x100000, .sp 1016, .win 255 0], ∀ p ∈ [([] : List Nat), [0x100000 / 32]],
      let r : Req := { sseq := 0, grp := 0, path := .vec, tgt := g, size := 8, op := .bank 1 7 0, dst := .sreg 31 }
      let s : State := { sw (fun w => { w with reqs := [r] }) with poison := p }
      s.pkg.service = .running ∧ s.w.isSaved = false ∧ s.w.reqs[0]? = some r ∧ reqFree s 0 = true ∧ requestHeld s s.w.die r.tgt = false ∧
        SpHere s ∧ Canonical s ∧ s.w.isGone = false ∧ (s.poisonedAt (.pkg 0x100000) = true ↔ p ≠ [])) ∧
    (∀ e ∈ [((0x100000 : BitVec 60), true), (0x40000000, false)],
      let m : Miss := ⟨0, e.1.toNat / 2 ^ 19, 0, [(1, 1)], none⟩
      let s := s0.setMyCluster { s0.myCluster with misses := [m] }
      OnDuty s ∧ Canonical s ∧ LinksUp s ∧ m ∈ s.myCluster.openMisses ∧ m.asid = s.w.asid ∧ s.myCluster.openMisses = [m] ∧
        ((dieWalks s s.w.die).filter (fun x => decide (x.seq < m.seq))).length < 64 ∧
        (e.2 = true → ∃ x, walk s s.w.asid e.1.toNat = .ok x) ∧ (e.2 = false → walk s s.w.asid e.1.toNat = .error 0x05)) ∧
    (∀ l ∈ [(none : Option Nat), some 3], ∀ p ∈ [([] : List Nat), [0x300000 / 32]],
      let x : FetchMiss := ⟨s0.w.id, l, 0x300000 / 32⟩
      let s : State := { s0.setMyCluster { s0.myCluster with fmiss := [x] } with poison := p }
      OnDuty s ∧ Canonical s ∧ LinksUp s ∧ s.myCluster.fmiss = [x] ∧ x.wave = s.w.id ∧ (s.poisoned (32 * x.sector) = true ↔ p ≠ [])) ∧
    (let s := s0.setMyCluster { s0.myCluster with l1 := [(5, 7)], rate := { dflt := ⟨0xFFFF, 1, 1, 1⟩ } }
     s.hasCluster 0 0 = true ∧ Canonical s ∧ 0 < (s.cluster 0 0).l1.length ∧ ((s.cluster 0 0).rate.entry 0).at 2 = 1 ∧
       spWf (0 : Int) 0 (s.cluster 0 0).tokens = true) := by
  refine ⟨fun g hg p hp => ?_, fun e he => ?_, fun l hl p hp => ?_,
    ⟨by decide +kernel, canonical_of (by decide +kernel), by decide +kernel, by decide +kernel, by decide +kernel⟩⟩
  · simp only [List.mem_cons, List.not_mem_nil, or_false] at hg hp
    rcases hg with rfl | rfl | rfl <;> rcases hp with rfl | rfl <;> exact ⟨rfl, rfl, rfl, by decide +kernel, by decide +kernel,
      ⟨by decide +kernel, by decide +kernel, by decide +kernel⟩, canonical_of (by decide +kernel), rfl, by decide +kernel⟩
  · simp only [List.mem_cons, List.not_mem_nil, or_false] at he
    rcases he with rfl | rfl <;> refine ⟨onDuty_of (by decide +kernel), canonical_of (by decide +kernel), rfl, by decide +kernel, by decide +kernel,
      by decide +kernel, by decide +kernel, fun h => ?_, fun h => ?_⟩ <;>
      first
        | exact absurd h (by decide)
        | exact exists_ok (by decide +kernel)
        | exact error_of (by decide +kernel)
  · simp only [List.mem_cons, List.not_mem_nil, or_false] at hl hp
    rcases hl with rfl | rfl <;> rcases hp with rfl | rfl <;>
      exact ⟨onDuty_of (by decide +kernel), canonical_of (by decide +kernel), rfl, by decide +kernel, by decide +kernel, by decide +kernel⟩

/-- What waits of TLBINV, in a handler and outside one, of FENCE and XFENCE, also left behind the control thread, and of WAITADDR, with the
word changed and not. -/
theorem witness_MemoryEvents_waits :
    (∀ i ∈ [Instr.tlbinvPage 1 2, .tlbinvAsid 2, .tlbinvAll], ∀ h ∈ [inHandler, id], let s := sw (fun w => h { w with wait := some (.issued i 9) })
      OnDuty s ∧ Canonical s ∧ s.w.cl < 64 ∧ s.w.reqs = [] ∧ QueueEmpty s ∧ s.w.runs = [] ∧ s.w.wait = some (.issued i 9) ∧
        ∀ c ∈ s.clusters, ∀ m ∈ c.2.misses, m.done.isSome = true ∨ 9 ≤ m.seq) ∧
    (∀ i ∈ [Instr.fence 4 1, .fence 0 3, .fence 5 0, .xfence 2 1 1, .xfence 2 1 2], ∀ b ∈ [true, false],
      let s := sw (fun w => if b then { w with wait := some (.issued i 1) } else { w with fence := some i })
      OnDuty s ∧ Canonical s ∧ s.w.cl < 64 ∧ NothingOpen s ∧ (b = true → s.w.fence = none ∧ s.w.wait = some (.issued i 1)) ∧ (b = false → s.w.fence = some i)) ∧
    (∀ b ∈ [(0 : U64), 1], let s := sw (fun w => { regs [(1, 0x300000), (2, b)] w with wait := some (.issued (.waitaddr 3 1 2) 0) })
      OnDuty s ∧ Canonical s ∧ NothingOpen s ∧ s.w.wait = some (.issued (.waitaddr 3 1 2) 0) ∧ LinksUp s ∧ NoWalk s 0 ∧ Translated s [0x300000] ∧
        s.w.doubleCause = none ∧ s.poisoned 0x300000 = false ∧
        translate s s.w.asid s.w.sup Acc.load 0x300000 = .ok (.pkg 0x300000) ∧ Memory.readN s.mem 0x300000 8 = 0 ∧ s.w.gs 1 = 0x300000 ∧ s.w.gs 2 = b) := by
  refine ⟨fun i hi h hh => ?_, fun i hi b hb => ?_, fun b hb => ?_⟩
  · simp only [List.mem_cons, List.not_mem_nil, or_false] at hi hh
    rcases hi with rfl | rfl | rfl <;> rcases hh with rfl | rfl <;> exact ⟨onDuty_of (by decide +kernel), canonical_of (by decide +kernel), by decide, rfl,
      ⟨fun e he => (List.not_mem_nil he).elim, fun e he => (List.not_mem_nil he).elim⟩, rfl, rfl, by decide +kernel⟩
  · simp only [List.mem_cons, List.not_mem_nil, or_false] at hi hb
    rcases hi with rfl | rfl | rfl | rfl | rfl <;> rcases hb with rfl | rfl <;> refine ⟨onDuty_of (by decide +kernel), canonical_of (by decide +kernel),
      by decide +kernel, nothingOpen_of (by decide +kernel), fun h => ?_, fun h => ?_⟩ <;> first | exact absurd h (by decide) | exact ⟨rfl, rfl⟩ | rfl
  · simp only [List.mem_cons, List.not_mem_nil, or_false] at hb
    rcases hb with rfl | rfl <;> exact ⟨onDuty_of (by decide +kernel), canonical_of (by decide +kernel), nothingOpen_of (by decide +kernel), rfl, rfl,
      noWalk_of rfl, translated_of (by decide +kernel), rfl, rfl, ok_of (by decide +kernel), by decide +kernel, by decide +kernel, by decide +kernel⟩

/-- The first and last unit of a corrected error, with its window closed and open; each unit that an uncorrectable error strikes; the last link;
the power budget after ten intervals above the sustained current; a grant. -/
theorem witness_ErrorsLinksAndPower :
    (∀ u ∈ [(1 : BitVec 3), 6], s0.hasCluster 0 63 = true ∧ s0.pkg.service = .running ∧ 1 ≤ u.toNat ∧ u.toNat ≤ 6 ∧ Canonical s0 ∧
      spWf (0 : Nat) 0 s0.pkg.wear.counts = true ∧ s0.pkg.windowEcc = []) ∧
    (let s : State := { s0 with pkg := { s0.pkg with windowEcc := [6] } }; s.hasCluster 0 0 = true ∧ (0 * 64 + 0) * 8 + (6 : BitVec 3).toNat ∈ s.pkg.windowEcc) ∧
    (let s := owned (sw (fun w => { w with vregs := [(63, { st := .live, tag := 16 })], mat := [entryAt (.mzero 0 0) 0 0 0] }))
     OnDuty s ∧ Canonical s ∧ spWf ({} : VReg) 0 s.w.vregs = true ∧ spWf (0 : Nat) 0 s.pkg.wear.counts = true ∧ (s.w.reg 63).st = .live ∧ 15 < (s.w.reg 63).tag ∧ s.myTeam.cl.isSome = true ∧ 1023 < s.myTeam.bytes ∧
       0xBFFFFFFFFF < s.installed ∧ s.myCluster.owner = some s.w.id ∧ s.w.mat ≠ []) ∧
    (51 < s0.links ∧ s0.trained 51 = true ∧ 51 ∉ s0.pkg.failedLinks ∧ ∀ d ∈ linkDies s0 51, (s0.die d).halted = false) ∧
    (let s : State := { s0 with pkg := { s0.pkg with power := { above := 10, grants := [(15, 400)] } } }
     s.pkg.service = .running ∧ ¬ (s.pkg.power.rest = 0 ∧ s.pkg.power.above < 10) ∧ 15 < s.ndie ∧ lkGet s.pkg.power.grants 15 = some 400) := by
  refine ⟨fun u hu => ?_, by decide +kernel, ⟨onDuty_of (by decide +kernel), canonical_of (by decide +kernel), by decide +kernel, by decide +kernel, by decide +kernel, by decide +kernel,
    by decide +kernel, by decide +kernel, by decide +kernel, by decide +kernel, nofun⟩, by decide +kernel, by decide +kernel⟩
  simp only [List.mem_cons, List.not_mem_nil, or_false] at hu
  rcases hu with rfl | rfl <;> exact ⟨by decide +kernel, rfl, by decide, by decide, canonical_of (by decide +kernel), rfl, rfl⟩

/-- A firmware image of one byte. -/
def image : Image := { whole := true, version := 0, entry := 0x100000, key := List.replicate 1952 0, sig := List.replicate 3309 0, body := [1] }

/-- A reset with an image written whole and with one cut off; a flit to a die not visited and to one visited, and a report; names drawn twice and
too few dies; boot after exploration, in each lifecycle state, with the entry header at the end of memory and past it, and with a die of 40
retired sites, of 9 retired banks. -/
theorem witness_BootAndFlash :
    (image.key.length = 1952 ∧ image.sig.length = 3309 ∧ image.body.length ≤ 15 * 2 ^ 20) ∧
    (∀ b ∈ [true, false], let s : State := { s0 with pkg := { s0.pkg with flash := some { image with whole := b } } }
      s.pkg.service ≠ .explored ∧ s.pkg.service ≠ .off ∧ s.pkg.minVersion.toNat ≤ image.version.toNat) ∧
    (∀ v ∈ [([] : List Nat), [5]],
      let x : Explore := { on := true, flits := [{ dest := 5, path := [0] }], sent := [{ node := 5, kind := 1, name := 0, near := [] }], visited := v }
      let s : State := { s0 with pkg := { s0.pkg with explore := x } }
      s.pkg.explore.on = true ∧ x.flits[0]? = some { dest := 5, path := [0] } ∧ (x.sent[0]?).isSome = true ∧ (5 ∈ x.visited ↔ v = [5])) ∧
    (∀ l ∈ [([] : List Report), [{ node := 0, kind := 0, name := nameOf s0 s0.nring, near := [] }]],
      let s : State := { s0 with pkg := { s0.pkg with explore := { on := true, got := l } } }
      s.pkg.explore.on = true ∧ s.pkg.explore.flits = [] ∧ s.pkg.explore.sent = [] ∧ Memory.wf s.mem = true ∧
        ((nameOf s s.nring :: s.pkg.explore.got.map (fun r => r.name)).Nodup ↔ l = []) ∧ (l = [] → badTopo s = true)) ∧
    (∀ e ∈ [(0xBFFFFFFFC0 : U64), 0xBFFFFFFFC1], ∀ c ∈ [(1 : BitVec 2), 2],
      let s : State := { pkg := { service := .explored, lifecycle := c, flash := some { image with entry := e } } }
      s.pkg.service = .explored ∧ s.w = {} ∧ s.others = [] ∧ s.teams = [] ∧ Memory.wf s.mem = true ∧ s.pkg.flash = some { image with entry := e } ∧
        (e.toNat + 64 ≤ s.installed ↔ e = 0xBFFFFFFFC0)) ∧
    (∀ k ∈ [(fun _ => 0 : Nat → Nat), fun k => wearUnit 0 k 0, wearBank 0],
      let s : State := { pkg := { service := .explored, wear := { retired := (List.range 40).map k } } }
      (enclOf s 0 < 32 ↔ k 1 = wearUnit 0 1 0) ∧ (8 < banksRetired s 0 ↔ k 1 = wearBank 0 1)) := by
  refine ⟨⟨List.length_replicate, List.length_replicate, by decide⟩, by decide +kernel, by decide +kernel, fun l hl => ?_, fun e he c hc => ?_, fun k hk => ?_⟩
  · simp only [List.mem_cons, List.not_mem_nil, or_false] at hl
    rcases hl with rfl | rfl
    · exact ⟨rfl, rfl, rfl, by decide +kernel, by simp, fun _ => by decide +kernel⟩
    · exact ⟨rfl, rfl, rfl, by decide +kernel, ⟨fun h => ((List.nodup_cons.1 h).1 (List.mem_singleton.2 rfl)).elim, nofun⟩, nofun⟩
  · simp only [List.mem_cons, List.not_mem_nil, or_false] at he hc
    rcases he with rfl | rfl <;> rcases hc with rfl | rfl <;> exact ⟨rfl, rfl, rfl, rfl, rfl, rfl, by decide +kernel⟩
  · simp only [List.mem_cons, List.not_mem_nil, or_false] at hk
    rcases hk with rfl | rfl | rfl <;> exact ⟨by decide +kernel, by decide +kernel⟩

/-- The mailbox with REQ 1 and a command in it. -/
def mailed (code a0 a1 a2 a3 : Nat) (f : Package → Package) : State :=
  { s0 with
    pkg := f s0.pkg
    mem := Memory.writeN (Memory.writeN (Memory.writeN (Memory.writeN (Memory.writeN (Memory.writeN s0.mem 0xC1000 8 1) 0xC1008 8 code) 0xC1010 8 a0)
      0xC1018 8 a1) 0xC1020 8 a2) 0xC1028 8 a3 }

theorem stands_host (code a0 a1 a2 a3 : U64) : CommandStands 1 code a0 a1 a2 a3 0 [] s0 :=
  ⟨Or.inl rfl, by decide +kernel, Or.inl ⟨rfl, rfl, fun h => absurd h (by decide), by decide +kernel⟩⟩

/-- `CommandArrives` as a test, of a mailbox command. -/
def arrivesB (code a0 a1 a2 a3 : U64) (s : State) : Bool :=
  decide (Memory.readN s.mem 0xC1000 8 ≠ Memory.readN s.mem 0xC1080 8) && s.pkg.cmds.all (fun c => c.host) &&
    decide (Memory.readN s.mem 0xC1008 8 = code.toNat) && decide (Memory.readN s.mem 0xC1010 8 = a0.toNat) &&
    decide (Memory.readN s.mem 0xC1018 8 = a1.toNat) && decide (Memory.readN s.mem 0xC1020 8 = a2.toNat) &&
    decide (Memory.readN s.mem 0xC1028 8 = a3.toNat)

theorem arrives_of {code a0 a1 a2 a3 : U64} {s : State} (h : arrivesB code a0 a1 a2 a3 s = true) : CommandArrives 0 code a0 a1 a2 a3 s := by
  simp only [arrivesB, Bool.and_eq_true, decide_eq_true_eq, List.all_eq_true] at h
  obtain ⟨⟨⟨⟨⟨⟨h1, h2⟩, h3⟩, h4⟩, h5⟩, h6⟩, h7⟩ := h
  exact fun _ => ⟨h1, h2, h3, h4, h5, h6, h7⟩

theorem stands_of {code a0 a1 a2 a3 : Nat} {f : Package → Package}
    (h : (decide ((f s0.pkg).service = .running) && (f s0.pkg).cmds.isEmpty && Memory.wf (mailed code a0 a1 a2 a3 f).mem &&
      decide ((1 : U64).toNat = Memory.readN (mailed code a0 a1 a2 a3 f).mem 0xC1000 8) &&
      arrivesB (BitVec.ofNat 64 code) (BitVec.ofNat 64 a0) (BitVec.ofNat 64 a1) (BitVec.ofNat 64 a2) (BitVec.ofNat 64 a3)
        (mailed code a0 a1 a2 a3 f)) = true) :
    CommandStands 0 (BitVec.ofNat 64 code) (BitVec.ofNat 64 a0) (BitVec.ofNat 64 a1) (BitVec.ofNat 64 a2) (BitVec.ofNat 64 a3) 1 []
      (mailed code a0 a1 a2 a3 f) := by
  simp only [Bool.and_eq_true, decide_eq_true_eq, List.isEmpty_iff] at h
  obtain ⟨⟨⟨⟨h1, h2⟩, h3⟩, h4⟩, h5⟩ := h
  exact ⟨Or.inl h1, h3, Or.inl ⟨h2, rfl, arrives_of h5, h4⟩⟩

/-- Every command from the host stands; from the mailbox each one, with its arguments in range and at the first value out of it, and ATTEST with
a key and without, LIFECYCLE and PROVISION in each state; the oldest of two commands taken stands; commands that arrive behind another, at
a window in use and at a region in use. -/
theorem witness_ManagementCommands :
    (∀ code a0 a1 a2 a3, CommandStands 1 code a0 a1 a2 a3 0 [] s0) ∧
    (∀ e ∈ [(1, 0x50000 + 255, 0, 4096, 7), (1, 0x60000, 0, 4096, 7), (2, 255, 0, 0, 0), (2, 256, 0, 0, 0), (3, 63 + 0x700, 0x100000, 0x1000, 0),
        (3, 64, 0x100000, 0x1000, 0), (4, 63, 0, 0, 0), (4, 64, 0, 0, 0), (5, 7, 1, 2, 0xFFFFFF), (5, 8, 1, 2, 0), (6, 5, 0, 0, 0), (6, 6, 0, 0, 0),
        (7, 0x300000, 0x400000, 0, 0), (7, 0x300000, 0x400001, 0, 0), (8, 3, 0, 0, 0), (8, 4, 0, 0, 0), (9, 0xFFFF, 0, 0, 0), (9, 0x10000, 0, 0, 0),
        (10, 0, 0, 0, 0), (0, 0, 0, 0, 0), (11, 0, 0, 0, 0)],
      CommandStands 0 (BitVec.ofNat 64 e.1) (BitVec.ofNat 64 e.2.1) (BitVec.ofNat 64 e.2.2.1) (BitVec.ofNat 64 e.2.2.2.1) (BitVec.ofNat 64 e.2.2.2.2) 1 []
        (mailed e.1 e.2.1 e.2.2.1 e.2.2.2.1 e.2.2.2.2 (fun p => { p with qps := [(5, {})] }))) ∧
    (∀ s ∈ [s0, mailed 0 0 0 0 0 (fun p => { p with qps := [(5, {})] })], s.pkg.lifecycle = 2 ∧ s.pkg.inbound = [] ∧
      (∀ w ∈ s.waves, w.reqs = [] ∧ w.openLoads = [] ∧ w.replies = []) ∧ ∀ e ∈ s.clusters, e.2.bulk = []) ∧
    (∃ k : Nat, k / 4096 = (7 : U64).toNat / 4 ∧ lkGet ([(5, ({} : Qp))]) k = none) ∧
    (∀ f ∈ [fun (p : Package) => { p with lifecycle := 0 }, fun p => { p with lifecycle := 1 }, fun p => { p with keyNo := none }],
      CommandStands 0 8 3 0 0 0 1 [] (mailed 8 3 0 0 0 f) ∧ CommandStands 0 10 0 0 0 0 1 [] (mailed 10 0 0 0 0 f) ∧
        CommandStands 0 7 0x300000 0x400000 0 0 1 [] (mailed 7 0x300000 0x400000 0 0 f)) ∧
    (let c : Command := ⟨true, 0, 1, 0, 0, 0, 0⟩
     let s := mailed 9 7 0 0 0 (fun p => { p with cmds := [c] })
     CommandStands 1 1 0 0 0 0 0 [] s ∧ TakesCommands s ∧ s.pkg.cmds ≠ [] ∧ CommandArrives 0 9 7 0 0 0 s ∧ (∀ d ∈ s.pkg.cmds.head?, d.code ≠ 9)) ∧
    (let s : State := { mailed 2 255 0 0 0 id with
        w := { s0.w with reqs := [{ sseq := 0, grp := 0, path := .vec, tgt := .win 255 0, size := 8, op := .store 1 }] } }
     s.pkg.lifecycle = 2 ∧ TakesCommands s ∧ s.pkg.cmds = [] ∧ (∃ r ∈ s.w.reqs, r.tgt = .win (255 : U64).toNat 0) ∧ CommandArrives 0 2 255 0 0 0 s) ∧
    (let s := mailed 4 63 0 0 0 (fun p => { p with inbound := [⟨5, 63, [(0x300000, [1])], []⟩] })
     s.pkg.lifecycle = 2 ∧ TakesCommands s ∧ s.pkg.cmds = [] ∧ (∃ b ∈ s.pkg.inbound, b.region = (63 : U64).toNat) ∧ CommandArrives 0 4 63 0 0 0 s) := by
  refine ⟨stands_host, fun e he => ?_, by decide +kernel, ⟨4096, by decide, rfl⟩, fun f hf => ?_,
    ⟨⟨Or.inl rfl, by decide +kernel, Or.inr rfl⟩, Or.inl rfl, nofun, arrives_of (by decide +kernel), by decide +kernel⟩,
    ⟨rfl, Or.inl rfl, rfl, ⟨_, List.mem_singleton.2 rfl, rfl⟩, arrives_of (by decide +kernel)⟩,
    ⟨rfl, Or.inl rfl, rfl, ⟨_, List.mem_singleton.2 rfl, rfl⟩, arrives_of (by decide +kernel)⟩⟩
  · simp only [List.mem_cons, List.not_mem_nil, or_false] at he
    rcases he with rfl | rfl | rfl | rfl | rfl | rfl | rfl | rfl | rfl | rfl | rfl | rfl | rfl | rfl | rfl | rfl | rfl | rfl | rfl | rfl | rfl <;>
      exact stands_of (by decide +kernel)
  · simp only [List.mem_cons, List.not_mem_nil, or_false] at hf
    rcases hf with rfl | rfl | rfl <;> exact ⟨stands_of (code := 8) (a0 := 3) (a1 := 0) (a2 := 0) (a3 := 0) (by decide +kernel),
      stands_of (code := 10) (a0 := 0) (a1 := 0) (a2 := 0) (a3 := 0) (by decide +kernel),
      stands_of (code := 7) (a0 := 0x300000) (a1 := 0x400000) (a2 := 0) (a3 := 0) (by decide +kernel)⟩

/-- The debug port with no wave of a WID, with one that is not stopped and one that is, a pending write in each WMODE; an inbound region with its
last byte, and the next; a WRITE of which two parts are still to be stored; a queue pair. -/
theorem witness_DebugPortAndInboundRdma :
    (s0.pkg.service = .running ∧ ∀ w ∈ s0.residents 0 0, w.wid ≠ 9) ∧
    (∀ b ∈ [false, true], ∀ m ∈ [(0 : BitVec 2), 1, 2],
      let l : Load := { sseq := 0, path := .vec, tgt := .pkg 0, size := 8, dst := .sreg 31, va := 0 }
      let s := sw (fun w => { w with dbg := { ena := true, stopped := b, wmode := m }, loads := [l], vregs := [(63, { st := .live, tag := 16 })] })
      NamesWave s 0 0 0 1 ∧ (s.focus 1).w.dbg.ena = true ∧ (s.focus 1).w.dbg.stopped = b ∧ (s.focus 1).w.dbg.vps = [] ∧ (s.focus 1).w.dbg.wmode = m ∧
        writePending (s.focus 1).w 0 31 = true ∧ writePending (s.focus 1).w 0 30 = false ∧ ((s.focus 1).w.reg 63).st ≠ .spilled ∧
        (s.focus 1).w.grow 63 = 0) ∧
    (15 < s0.ndie ∧ TakesCommands s0 ∧ spWf ({} : Die) 0 s0.dies = true) ∧
    (let m : Inbound := ⟨8191, 63, [(0x300000, [1, 2]), (0x300008, [3])], [0x18000]⟩
     ∀ l ∈ [([] : List Inbound), [m]],
     let s : State := { s0 with pkg := { s0.pkg with
        regions := [(63, { valid := true, base := 0x300000, len := 0x1000, rights := 7, key := 5 })], qps := [(8191, { rate := 800 })], inbound := l } }
     s.pkg.service = .running ∧ Memory.wf s.mem = true ∧ (lkGet s.pkg.qps (8191 : BitVec 13).toNat).isSome = true ∧ LinksUp s ∧ s.pkg.cmds = [] ∧
       (∀ n ∈ [0, 1, 2], ∃ e ∈ s.pkg.regions, e.2.valid = true ∧ e.2.key = 5 ∧ e.2.base.toNat ≤ 0x300FF8 ∧ 0x300FF8 + 8 ≤ e.2.base.toNat + e.2.len.toNat ∧
         e.2.rights.getLsbD n = true) ∧
       (¬ ∃ e ∈ s.pkg.regions, e.2.valid = true ∧ e.2.key = 5 ∧ e.2.base.toNat ≤ 0x300FF9 ∧ 0x300FF9 + 8 ≤ e.2.base.toNat + e.2.len.toNat) ∧
       (l = [] → ∀ x ∈ s.pkg.inbound, x.qp ≠ (8191 : BitVec 13).toNat) ∧
       (l = [m] → s.pkg.inbound[0]? = some m ∧ m.qp = (8191 : BitVec 13).toNat ∧ m.parts[(1 : BitVec 32).toNat]? = some (0x300008, [3]))) ∧
    (let s : State := { s0 with pkg := { s0.pkg with qps := [(8191, { rate := 800 })] } }
     s.pkg.service = .running ∧ lkGet s.pkg.qps (8191 : BitVec 13).toNat = some { rate := 800 }) := by
  refine ⟨⟨rfl, by decide +kernel⟩, fun b hb m hm => ?_, ⟨by decide +kernel, Or.inl rfl, by decide +kernel⟩, fun l hl => ?_, by decide +kernel⟩
  · simp only [List.mem_cons, List.not_mem_nil, or_false] at hb hm
    rcases hb with rfl | rfl <;> rcases hm with rfl | rfl | rfl <;>
      exact ⟨⟨_, List.mem_singleton.2 rfl, rfl, rfl, fun v hv _ => by rw [List.mem_singleton.1 hv]; rfl⟩, rfl, rfl, rfl, rfl, by decide +kernel, by decide +kernel,
        by decide +kernel, by decide +kernel⟩
  · simp only [List.mem_cons, List.not_mem_nil, or_false] at hl
    rcases hl with rfl | rfl <;> refine ⟨rfl, by decide +kernel, rfl, rfl, rfl, by decide +kernel, by decide +kernel, fun h => ?_, fun h => ?_⟩ <;>
      first
        | cases h; done
        | exact fun x hx => (List.not_mem_nil hx).elim
        | exact ⟨rfl, rfl, rfl⟩

/-- A control thread about to fetch NOP, cached and not, and one where it may not, also stalled, single-stepped and in a handler with a trap
pending; a lane about to step, an event on the agenda. -/
theorem witness_StepRunsDecodedInstruction :
    (∀ pc ∈ [(0x100000 : U64), 0x20000000], ∀ f ∈ [id, (fun w => { w with wait := some (.stall .fetch) }), (fun w => { w with dbg := { w.dbg with ena := true, single := true } }),
        fun (w : Wave) => { inHandler w with traps := [{ src := 3, cause := 5 }] }],
      let s : State := { sw (fun w => f { w with pc := pc }) with agenda := [{ wave := 1, act := .control }] }
      s.agenda = { wave := s.w.id, act := .control } :: [] ∧ OnDuty s ∧ s.w.active = true ∧ s.w.dbg.stopped = false ∧ s.w.saveFault = false ∧
        s.w.leaving = false ∧ s.w.doubleCause = none ∧ s.w.wantsMat = false ∧ (s.w.wait = none ∨ s.w.wait = some (.stall .fetch)) ∧
        (s.w.trp.inh = true ∨ s.w.traps = [] ∧ s.w.bud.preempt = false ∧ s.w.bud.exhaust = none ∧ s.w.bud.graceHit = false) ∧ s.w.dbg.baddr = 0 ∧
        s.w.pc.toNat < 2 ^ 60 - 2 ^ 40 ∧ Translated { s with agenda := [], free := s.free + 1 } [s.w.pc.toNat] ∧ NoWalk s 0 ∧ Canonical s ∧ s.w.dbg.pass = false ∧
        (pc = 0x100000 → translate { s with agenda := [], free := s.free + 1 } s.w.asid s.w.sup Acc.fetch 0x100000 = .ok (.pkg 0x100000) ∧ s.poisoned 0x100000 = false ∧
          lkGet s.myCluster.icache 0x100000 = some 0x30000000) ∧
        (pc = 0x20000000 → translate { s with agenda := [], free := s.free + 1 } s.w.asid s.w.sup Acc.fetch 0x20000000 = .error 0x07)) ∧
    CanTrap s0 ∧ lkGet s0.myCluster.icache 0x100004 = none ∧
    (let s : State := { lane 0x47040000 [0] with agent := .control, agenda := [{ wave := 1, act := .lane 0 }] }
     OnDuty s ∧ s.w.active = true ∧ s.w.trp.inh = false ∧ s.w.dbg.stopped = false ∧ s.w.saveFault = false ∧ s.w.doubleCause = none ∧ s.w.wantsMat = false ∧
       laneTaken s 0 = false ∧ s.w.ending = [] ∧ s.w.dbg.ena = false ∧ s.w.dbg.vps = [] ∧
       s.w.nextVp 0 = some (0, .run 0 0 0 none false) ∧ (∃ r, s.w.run? 0 = some r)) ∧
    (let s : State := { s0 with agenda := [{ wave := 1, act := .event .powerInterval }] }
     s.agenda = { wave := s.w.id, act := .event .powerInterval } :: [] ∧ encode .powerInterval = none) := by
  refine ⟨fun pc hp f hf => ?_, canTrap_of (by decide +kernel), by decide +kernel,
    ⟨onDuty_of (by decide +kernel), rfl, rfl, rfl, rfl, rfl, rfl, by decide +kernel, by decide +kernel, rfl, rfl, by decide +kernel, _, rfl⟩, rfl, rfl⟩
  simp only [List.mem_cons, List.not_mem_nil, or_false] at hp hf
  rcases hp with rfl | rfl <;> rcases hf with rfl | rfl | rfl | rfl <;>
    refine ⟨rfl, onDuty_of (by decide +kernel), rfl, rfl, rfl, rfl, rfl, rfl, by decide +kernel, by decide +kernel, rfl, by decide, translated_of (by decide +kernel),
      noWalk_of rfl, canonical_of (by decide +kernel), rfl, fun h => ?_, fun h => ?_⟩ <;>
    first
      | exact absurd h (by decide)
      | exact ⟨ok_of (by decide +kernel), by decide +kernel, by decide +kernel⟩
      | exact error_of (by decide +kernel)

theorem witness_DecodeAndEncodeAgree : wellFormed (.add 31 0 31) = true ∧ encode (.add 31 0 31) = some 0x01F83E00 ∧
    decodeWord (0x01F83E00 : BitVec 32).toNat = some (.add 31 0 31) := by decide +kernel

/-- A step that stores: the word of ST sends it, and the machine then performs it by itself. -/
theorem witness_MemoryStaysCanonical : let s := State.reset.withFetchWord 32 0x30000000
    Memory.wf s.mem = true ∧ ∃ t, step s = .next t := ⟨by decide +kernel, _, rfl⟩

theorem witness_BranchAndCallWords : (∀ w ∈ [(0x317FFFFF : BitVec 32), 0x31800000], w.toNat / 2 ^ 24 = 0x31 ∧ Issues (instrOfWord w) {} s0) ∧
    (∀ w ∈ [(0x337FFFFF : BitVec 32), 0x33800000], w.toNat / 2 ^ 24 = 0x33 ∧ Issues (instrOfWord w) { deps := [31] } s0) := by
  refine ⟨fun w hw => ?_, fun w hw => ?_⟩ <;> simp only [List.mem_cons, List.not_mem_nil, or_false] at hw <;>
    rcases hw with rfl | rfl <;> exact ⟨by decide, issues_of (by decide +kernel)⟩

/-- 2^128 overflows FP32 and the largest finite number does not. -/
theorem witness_OverflowIsDelivered :
    let overflows (man : Nat) (exp : Int) : Prop := (Fmt.f32.bias : Int) + 1 ≤
      (Nat.log2 (roundAt 0 false man exp ((Nat.log2 man : Int) + exp - Fmt.f32.fbits)).1 : Int) + ((Nat.log2 man : Int) + exp - Fmt.f32.fbits)
    overflows 1 128 ∧ overflows 0x1FFFFFF 103 ∧ ¬ overflows 0xFFFFFF 104 := by decide +kernel

theorem witness_ScalarBroadcastSources : ∀ b ∈ [(0x48 : BitVec 8), 0x67], b.toNat / 2 ^ 6 = 1 ∧ 8 ≤ b.toNat % 64 ∧ b.toNat % 64 ≤ 39 := by decide

theorem witness_ChargesFit : s0.w.trp.inh = false ∧ -(2 ^ 63) ≤ s0.w.bud.ibgt.toInt - (2 ^ 62 : Nat) ∧ -(2 ^ 63) ≤ s0.w.bud.mbgt.toInt - (2 ^ 62 : Nat) := by
  decide +kernel

/-! ### Decoding

Each word is written out from the row of its instruction in the opcode table (chapters 12 and 13): opcode, fixed bits, and every field at a value of
its own. -/

theorem test_decode_scalar_registers : ∀ e ∈ [(0x01C41000, Instr.add 24 16 8), (0x0216E600, .sub 2 27 19), (0x03697C00, .mul 13 5 30), (0x04C41000, .mulh 24 16 8),
    (0x051EE600, .mulhs 3 27 19), (0x0671BC00, .div 14 6 30), (0x07C45200, .divs 24 17 9), (0x081EE800, .rem 3 27 20),
    (0x0971BC00, .rems 14 6 30), (0x0ACC5200, .andS 25 17 9), (0x0B272800, .orS 4 28 20), (0x0C79FE00, .xorS 15 7 31),
    (0x0DCC5400, .shl 25 17 10), (0x0E272800, .shr 4 28 20), (0x0F79FE00, .sar 15 7 31), (0x10D49400, .slt 26 18 10),
    (0x112F6A00, .slts 5 29 21), (0x127A3E00, .minU 15 8 31), (0x13D49400, .mins 26 18 10), (0x142F6A00, .maxU 5 29 21),
    (0x15823E00, .maxs 16 8 31), (0x16DCC000, .popc 27 19), (0x172F8000, .clz 5 30)],
    instrOfWord e.1 = e.2 := by decide +kernel

theorem test_decode_scalar_immediates : ∀ e ∈ [(0x18821561, Instr.addi 16 8 5473), (0x19DCDBEB, .andi 27 19 7147), (0x1A37A276, .ori 6 30 8822), (0x1B8A6901, .xori 17 9 10497),
    (0x1CDD2F8C, .shli 27 20 12172), (0x1D37B617, .shri 6 30 13847), (0x1E8A7CA1, .sari 17 9 15521), (0x1FE5032C, .slti 28 20 812),
    (0x203BB4BF, .li 7 242879), (0x218DFB4A, .lis 17 392010)],
    instrOfWord e.1 = e.2 := by decide +kernel

theorem test_decode_control_thread : ∀ e ∈ [(0x22E510BD, Instr.ld 28 20 1 0 189), (0x233FF250, .st 7 31 3 592), (0x2492854B, .amo 18 10 2 10 2 3),
    (0x25E80575, .crrd 29 1397), (0x2601CC00, .crwr 7 3072), (0x30000000, .nop), (0x3157541D, .br 5723165),
    (0x32FFC190, .bc 7 31 24 400), (0x335BE133, .call 6021427), (0x34ED8000, .jr 29 22), (0x35FF0340, .brany 7 2032448),
    (0x366149CB, .brall 3 84427), (0x37C39056, .brnone 6 233558), (0x386741E9, .trapS 6767081), (0x39000000, .eret),
    (0x3A6BCEFE, .dbgbrk 7065342), (0x3B024200, .tlbinvPage 9 1), (0x3B402800, .tlbinvAsid 20), (0x3B800000, .tlbinvAll),
    (0x3C50B400, .waitaddr 10 2 26), (0x3D980000, .fence 4 3), (0x3EF77800, .xfence 7 23 15), (0x3F000000, .exitW)],
    instrOfWord e.1 = e.2 := by decide +kernel

theorem test_decode_configuration : ∀ e ∈ [(0x405A0000, Instr.vsetcfg 1 1 5), (0x41FE2000, .vsetvl 31 24 1), (0x4250C000, .psetvl 10 3), (0x43D40000, .reggive 53),
    (0x44FC0000, .regclaim 63), (0x4587F903, .vfetch 1 522499), (0x454E0000, .vfetchReg 0 14), (0x46F80000, .vcatch 31),
    (0x47AE3400, .abegin 43 35 0 1), (0x4891132E, .thfetch 1 1119022), (0x4859B100, .thfetchReg 0 25 177), (0x49800000, .vpstop 1),
    (0x4BB71C00, .velect 22 7 7), (0x4B090200, .velectIdx 1 1), (0x4C64B800, .vballot 12 4 92), (0x4DFFFB80, .mop 7 7 7 7 23),
    (0x4E008000, .vxseed 2), (0x4F600000, .vxtake 12)],
    instrOfWord e.1 = e.2 := by decide +kernel

theorem test_decode_integer_elements : ∀ e ∈ [(0x501EFFF8, Instr.vaddI 0 15 0 255 248), (0x51B58B83, .vsubI 1 26 1 139 131), (0x524A150D, .vmulI 0 37 0 21 13),
    (0x53E1A098, .vmacI 1 48 1 160 152), (0x54762B23, .vminI 0 59 0 43 35), (0x558BB6AE, .vminIs 1 5 1 182 174),
    (0x56204139, .vmaxI 0 16 0 65 57), (0x57B7CBC4, .vmaxIs 1 27 1 203 196), (0x584C564E, .vand 0 38 0 86 78),
    (0x59E3E1D9, .vor 1 49 1 225 217), (0x5A766C64, .vxor 0 59 0 108 100), (0x5B8DF7EF, .vshl 1 6 1 247 239),
    (0x5C22817A, .vshr 0 17 0 129 122), (0x5DB90C04, .vshrA 1 28 1 12 4), (0x5E7E978F, .vcmpI 0 7 7 151 143),
    (0x5F722A22, .vsel 57 0 42 34), (0x6078ADA5, .vaddiI 0 60 0 173 165), (0x618F3730, .vandi 1 7 1 55 48),
    (0x6224C2BA, .vshli 0 18 0 194 186), (0x63BB4D45, .vshri 1 29 1 77 69), (0x644ED8D0, .vshriA 0 39 0 216 208),
    (0x65A4635B, .vcmpiI 1 2 2 99 91), (0x667A00ED, .vmovi 0 61 0 237), (0x67917800, .vmov 1 8 1 120), (0x68260000, .viota 0 19 0)],
    instrOfWord e.1 = e.2 := by decide +kernel

theorem test_decode_cross_elements : ∀ e ∈ [(0x69809D00, Instr.vxsend 1 157), (0x6A501911, .vperm 0 40 0 25 17), (0x6BE6AB00, .vcompress 1 51 171),
    (0x6C7C362E, .vred 0 62 54 46), (0x6D92C1B9, .vscan 1 9 193 185), (0x6E284C01, .vnzscan 0 20 76 1),
    (0x6FBDCFC7, .bmand 1 30 1 207 199), (0x70525952, .bmpos 0 41 0 89 82)],
    instrOfWord e.1 = e.2 := by decide +kernel

theorem test_decode_float_elements : ∀ e ∈ [(0x71E9E4DC, Instr.vaddF32 1 52 1 228 220), (0x727E6F67, .vsubF32 0 63 0 111 103), (0x7395FAF2, .vmulF32 1 10 1 250 242),
    (0x7428857D, .vfmaF32 0 20 0 133 125), (0x75BF0F08, .vfmsF32 1 31 1 15 8), (0x76549A92, .vdivF32 0 42 0 154 146),
    (0x77EB2500, .vsqrtF32 1 53 1 37), (0x787EB0A8, .vminF32 0 63 0 176 168), (0x79953B33, .vmaxF32 1 10 1 59 51),
    (0x7A5AC6BE, .vcmpF32 0 5 5 198 190), (0x7BC15000, .vexp2 1 32 1 80), (0x7C56DB00, .vrcp 0 43 0 219),
    (0x7DED665E, .vaddc 1 54 1 102 94), (0x7E7EF1E9, .vaddF16 0 63 0 241 233), (0x7F977C74, .vsubF16 1 11 1 124 116),
    (0x802C06FE, .vmulF16 0 22 0 6 254), (0x81C39189, .vfmaF16 1 33 1 145 137), (0x82581C14, .vminF16 0 44 0 28 20),
    (0x83EDA79F, .vmaxF16 1 54 1 167 159), (0x8412322A, .vcmpF16 0 1 1 50 42), (0x8599BCB5, .vaddE8m7 1 12 1 188 181),
    (0x862E473F, .vsubE8m7 0 23 0 71 63), (0x87C5D2CA, .vmulE8m7 1 34 1 210 202), (0x88585D55, .vfmaE8m7 0 44 0 93 85),
    (0x89EFE8E0, .vminE8m7 1 55 1 232 224), (0x8A04726B, .vmaxE8m7 0 2 0 114 107), (0x8BDAFDF5, .vcmpE8m7 1 5 5 253 245),
    (0x8C3088F8, .vcvt 0 24 0 136 15 8)],
    instrOfWord e.1 = e.2 := by decide +kernel

theorem test_decode_vector_memory : ∀ e ∈ [(0x90C4DA7F, Instr.vld 1 34 27 19 1 3 3), (0x915AF2DA, .vst 0 45 0 30 22 1 2 2), (0x92F08515, .vgath 1 56 16 40 1 1 1),
    (0x9306DE6F, .vgathC 0 3 27 51 0 3 3), (0x949DF6CF, .vscat 1 14 1 30 54 0 3 3), (0x95308925, .vamo 0 24 17 9 0 1 1),
    (0x96C6DA9F, .bkred 1 35 27 20 1 3 3), (0x97CE3400, .wmlink 6 14 6 2), (0x980E4000, .wmpub 1 25),
    (0xA061394C, .bcopy 12 4 28 20 3), (0xA1B3C000, .cmdb 22 15), (0xA20E4000, .barinit 1 25), (0xA384409C, .barrive 4 4 16540),
    (0xA4BC0000, .bwait 23 1), (0xA516A400, .wdq 2 26 18)],
    instrOfWord e.1 = e.2 := by decide +kernel

theorem test_decode_matrix : ∀ e ∈ [(0xB0000000, Instr.macq), (0xB1000000, .mrel), (0xB29A4A90, .mma 2 26 18 10 0 1), (0xB365756C, .mmas 1 37 29 5 1 0 6 0),
    (0xB4F0A3D8, .mscacc 3 48 40 15 0 3 0), (0xB5BB002C, .mmovTileToReg 2 59 1 3), (0xB5450018, .mmovRegToTile 1 5 0 2),
    (0xB6C00000, .mzero 3 0), (0xB6000010, .mzeroAll 0), (0xB7860008, .msave 2 6 2), (0xB8D10004, .mrest 3 17 1),
    (0xB9FBD32C, .mepi 3 59 52 12 1 0 3 0)],
    instrOfWord e.1 = e.2 := by decide +kernel

theorem test_decode_launch : ∀ e ∈ [(0xC071BC00, Instr.spawn 14 6 30), (0xC1904941, .vspawn 1 1 73 65), (0xC2010000, .yieldW 4), (0xC3E00000, .contset 14),
    (0xC4CC5420, .btopup 25 17 10 2), (0xC4270008, .btopupZ 4 28), (0xC5F1FC00, .repf 15 7 15)],
    instrOfWord e.1 = e.2 := by decide +kernel

/-- Words that the spec's own examples write in hexadecimal (chapters 12 to 17), the scalar and integer ones. -/
theorem test_decode_examples_a_to_vcmp : ∀ e ∈ [(0x01184400, Instr.add 3 1 2), (0x09184400, .rems 3 1 2), (0x0F10C800, .sar 2 3 4), (0x15109200, .maxs 2 2 9),
    (0x1610C000, .popc 2 3), (0x1710C000, .clz 2 3), (0x1810BFFF, .addi 2 2 0x3FFF), (0x1939FFC0, .andi 7 7 0x3FC0),
    (0x1B18FFFF, .xori 3 3 0x3FFF), (0x1F20BFFF, .slti 4 2 0x3FFF), (0x20280001, .li 5 1), (0x2220B010, .ld 4 2 3 0 16),
    (0x2229AFFC, .ld 5 6 2 1 0x7FC), (0x2320B000, .st 4 2 3 0), (0x2420864F, .amo 4 2 3 2 3 3), (0x30000000, .nop),
    (0x31FFFFFD, .br 0xFFFFFD), (0x328307FB, .bc 4 3 0 0x7FB), (0x3407C000, .jr 0 31), (0x3540000C, .brany 2 12),
    (0x371FFFFD, .brnone 0 0x1FFFFD), (0x3A000007, .dbgbrk 7), (0x3B010A00, .tlbinvPage 4 5), (0x3B400A00, .tlbinvAsid 5),
    (0x3B800000, .tlbinvAll), (0x3C190A00, .waitaddr 3 4 5), (0x40A60000, .vsetcfg 2 2 3), (0x41292000, .vsetvl 5 4 1),
    (0x41290000, .vsetvl 5 4 0), (0x42290000, .psetvl 5 4), (0x43E00000, .reggive 56), (0x45000003, .vfetch 0 3),
    (0x46180000, .vcatch 3), (0x470CA000, .abegin 3 10 0 0), (0x470CA800, .abegin 3 10 1 0), (0x483FFFFB, .thfetch 0 0x3FFFFB),
    (0x48BFFFFB, .thfetch 1 0x3FFFFB), (0x48460300, .thfetchReg 0 6 3), (0x4B220C00, .velect 4 2 3), (0x4B220200, .velectIdx 4 2),
    (0x4C220000, .vballot 4 2 0), (0x4D45B200, .mop 2 1 3 3 4), (0x52060102, .vmulI 0 3 0 1 2), (0x530A014B, .vmacI 0 5 0 1 0x4B),
    (0x55040203, .vminIs 0 2 0 2 3), (0x5D0A054A, .vshrA 0 5 0 5 0x4A), (0x5E380451, .vcmpI 0 3 4 4 0x51),
    (0x5F080102, .vsel 4 0 1 2), (0x600402FF, .vaddiI 0 2 0 2 0xFF), (0x6104020F, .vandi 0 2 0 2 15)],
    instrOfWord e.1 = e.2 := by decide +kernel

/-- The rest of them. -/
theorem test_decode_examples_vcmpi_to_z : ∀ e ∈ [(0x62040203, Instr.vshli 0 2 0 2 3), (0x651402FF, .vcmpiI 0 1 2 2 0xFF), (0x661200FD, .vmovi 0 9 0 0xFD),
    (0x67124C00, .vmov 0 9 0 0x4C), (0x680E0000, .viota 0 7 0), (0x6A080102, .vperm 0 4 0 1 2), (0x6B840100, .vcompress 1 2 1),
    (0x6C068108, .vred 0 3 0x81 8), (0x6D060100, .vscan 0 3 1 0), (0x6E040101, .vnzscan 0 2 1 1),
    (0x74088140, .vfmaF32 0 4 0 0x81 0x40), (0x760A0102, .vdivF32 0 5 0 1 2), (0x77040100, .vsqrtF32 0 2 0 1),
    (0x7B060100, .vexp2 0 3 0 1), (0x7C088200, .vrcp 0 4 0 0x82), (0x7D080409, .vaddc 0 4 0 4 9), (0x7F060102, .vsubF16 0 3 0 1 2),
    (0x83020141, .vmaxF16 0 1 0 1 0x41), (0x85060102, .vaddE8m7 0 3 0 1 2), (0x8C06020B, .vcvt 0 3 0 2 0 11),
    (0x8C0C818A, .vcvt 0 6 0 0x81 8 10), (0x90062000, .vld 0 3 4 0 0 0 0), (0x918B30E0, .vst 1 5 1 6 7 0 0 0),
    (0x920A30E0, .vgath 0 5 6 7 0 0 0), (0x930A30F4, .vgathC 0 5 6 7 1 1 0), (0x94052060, .vscat 0 2 1 4 3 0 0 0),
    (0x95083440, .vamo 0 4 6 34 0 0 0), (0x96042060, .bkred 0 2 4 3 0 0 0), (0x97642C00, .wmlink 3 4 5 2), (0x98214000, .wmpub 4 5),
    (0xA0214C70, .bcopy 4 5 6 7 0), (0xA1424000, .cmdb 8 9), (0xA5214C00, .wdq 4 5 6), (0xB2402080, .mma 1 0 8 2 0 0),
    (0xB3004001, .mmas 0 0 16 0 0 0 0 1), (0xB5200004, .mmovTileToReg 0 32 0 1), (0xB5D00030, .mmovRegToTile 3 16 1 0),
    (0xB6800000, .mzero 2 0), (0xB6000010, .mzeroAll 0), (0xB7480000, .msave 1 8 0), (0xB848000C, .mrest 1 8 3),
    (0xC0190A00, .spawn 3 4 5), (0xC1A00405, .vspawn 1 2 4 5), (0xC4190A60, .btopup 3 4 5 6), (0xC4190008, .btopupZ 3 4)],
    instrOfWord e.1 = e.2 := by decide +kernel

/-- Opcodes that the map leaves unassigned, an unused bit that is set, and a header word's tag. -/
theorem test_decode_rejects : decodeWord 0x00000000 = none ∧ decodeWord 0xFFFFFFFF = none ∧ decodeWord 0x30000001 = none ∧ decodeWord 0x01000001 = none ∧
    instrOfWord 0xFFFFFFFF = .unassignedOpcode 0xFFFFFFFF := by decide +kernel

/-! ### Well-formedness

One ill-formed term for each check: the reserved code or the form that has a row of its own is refused, and the neighbouring code is not. -/

theorem test_reserved_codes : ∀ e ∈ [(Instr.ld 1 2 3 1 0, Instr.ld 1 2 3 0 0), (.amo 1 2 3 10 0 0, .amo 1 2 3 9 0 0), (.amo 1 2 3 0 5 0, .amo 1 2 3 0 4 0),
    (.crrd 1 0x00A, .crrd 1 0x009), (.crwr 1 0x048, .crwr 1 0x047), (.bc 7 1 2 0, .bc 6 1 2 0), (.fence 5 0, .fence 4 0), (.xfence 5 1 1, .xfence 4 1 1),
    (.xfence 0 0 1, .xfence 0 1 1), (.xfence 0 1 0, .xfence 0 31 31), (.vsetcfg 0 0 6, .vsetcfg 3 3 5), (.mop 0 0 1 4 0, .mop 0 0 0 4 0),
    (.mop 0 1 0 6 0, .mop 0 0 0 6 0), (.barrive 5 1 1, .barrive 4 1 1), (.barrive 0 1 0, .barrive 0 1 1), (.bcopy 1 2 3 4 3, .bcopy 1 2 3 4 2),
    (.vaddI 0 1 0 0x45 2, .vaddI 0 1 0 0x44 2), (.vaddI 0 1 0 1 0x68, .vaddI 0 1 0 1 0x67), (.vmov 0 1 0 0xC0, .vmov 0 1 0 0xBF), (.vsel 1 0 0x46 1, .vsel 1 0 1 1),
    (.vspawn 0 1 1 0x47, .vspawn 0 1 1 0x48), (.thfetchReg 0 1 0x7F, .thfetchReg 0 1 0x80), (.vred 0 1 2 15, .vred 0 1 2 14), (.vcmpI 0 1 7 1 2, .vcmpI 0 1 6 1 2),
    (.vcmpiI 0 1 7 1 2, .vcmpiI 0 1 6 1 2), (.vcmpF32 0 1 4 1 2, .vcmpF32 0 1 3 1 2), (.vcvt 0 1 0 2 11 0, .vcvt 0 1 0 2 10 0),
    (.vcvt 0 1 0 2 0 12, .vcvt 0 1 0 2 0 11), (.vcvt 0 1 0 2 3 3, .vcvt 0 1 0 2 3 4), (.vld 0 1 2 3 0 0 3, .vld 0 1 2 3 0 0 2),
    (.vst 0 1 0 2 3 0 0 2, .vst 0 1 0 2 3 0 0 1), (.vamo 0 1 31 3 0 0 0, .vamo 0 1 30 3 0 0 0), (.bkred 0 1 2 3 0 0 2, .bkred 0 1 2 3 0 0 1),
    (.mma 0 0 0 4 0 0, .mma 0 0 0 3 0 0), (.mmas 0 0 0 0 0 0 4 0, .mmas 0 0 0 0 0 0 3 0), (.mscacc 1 0 0 0 0 1 1, .mscacc 1 0 0 0 0 1 0),
    (.unassignedOpcode 0xFFFFFFFF, .nop)], wellFormed e.1 = false ∧ wellFormed e.2 = true := by decide +kernel

/-- CRRD and CRWR of a register whose access has a row of its own are not their own constructor's words. -/
theorem test_canonical_forms : ∀ e ∈ [(Instr.crrd 1 0x004, Instr.crrd 1 0x800), (.crwr 1 0x004, .crwr 1 0x003), (.crwr 1 0x800, .crwr 1 0x803),
    (.crwr 1 0x802, .crwr 1 0x805), (.crwr 1 0x810, .crwr 1 0x000), (.crwr 1 0x811, .crwr 1 0x804), (.crwr 1 0x820, .crwr 1 0x020)],
    reservedCode e.1 = false ∧ wellFormed e.1 = false ∧ wellFormed e.2 = true := by decide +kernel

/-! ### Single steps, with results from the examples of the spec's entries -/

/-- The wave after an instruction. -/
def after (i : Instr) (s : State) : Option Wave := match exec i s with | .next t => some t.w | _ => none

/-- POPC, CLZ, MAXS, MAX, SAR and SLTI of their entries. -/
theorem test_scalar_examples : (after (.clz 2 3) (sw (regs [(3, 0x10000)]))).map (·.gs 2) = some 47 ∧
    (after (.popc 2 3) (sw (regs [(3, 0xF0F0)]))).map (·.gs 2) = some 8 ∧
    (after (.maxs 2 2 9) (sw (regs [(2, -1), (9, 5)]))).map (·.gs 2) = some 5 ∧
    (after (.maxU 2 2 9) (sw (regs [(2, -1), (9, 5)]))).map (·.gs 2) = some 0xFFFFFFFFFFFFFFFF ∧
    (after (.sar 2 3 4) (sw (regs [(3, 0x8000000000000000), (4, 65)]))).map (·.gs 2) = some 0xC000000000000000 ∧
    (after (.slti 4 2 0x3FFF) (sw (regs [(2, -2)]))).map (·.gs 4) = some 1 ∧
    (after (.addi 2 2 0x3FFF) s0).map (·.gs 2) = some 0xFFFFFFFFFFFFFFFF := by decide +kernel

/-- Division by zero and of -2^63 by -1 (R108). -/
theorem test_division_corners : (after (.divs 3 1 2) (sw (regs [(1, 7)]))).map (·.gs 3) = some (-1) ∧
    (after (.rems 3 1 2) (sw (regs [(1, 7)]))).map (·.gs 3) = some 7 ∧
    (after (.divs 3 1 2) (sw (regs [(1, 0x8000000000000000), (2, -1)]))).map (·.gs 3) = some 0x8000000000000000 ∧
    (after (.rems 3 1 2) (sw (regs [(1, 0x8000000000000000), (2, -1)]))).map (·.gs 3) = some 0 := by decide +kernel

/-- A write of s0 is discarded (R25), and JR takes its target before it writes its link (R358). -/
theorem test_zero_and_link_registers : (after (.li 0 5) s0).map (·.gs 0) = some 0 ∧
    (after (.jr 31 31) (sw (regs [(31, 0x200)]))).map (fun w => (w.gs 31, w.pc)) = some (0x100004, 0x200) := by decide +kernel

/-- MOP.ANDN, MOP.FIRST, VELECT and VBALLOT of their entries, at VL 10. -/
theorem test_mask_examples :
    let m (l : List (Nat × BitVec 8192)) (i : Instr) : State :=
      sw (fun w => { queued i id w with cfg := { w.cfg with vl := 10, ewc := 0 }
                                        masks := Vector.ofFn (fun k => (l.find? (fun e => e.1 == k.val)).elim 0 Prod.snd)
                                        vregs := [(3, { st := .live, tag := 10, elems := [(3, 0x81)] })] })
    let run (l : List (Nat × BitVec 8192)) (i : Instr) : Option Wave := after .vectorQueueEntryEffect (m l i)
    (run [(1, 0b1101101101), (3, 0b0101000101)] (.mop 2 1 3 3 4)).map (fun w => (w.mask 2, w.gs 4)) = some (0b1000101000, 3) ∧
    (run [(2, 0b1000101000)] (.mop 5 2 0 7 0)).map (·.mask 5) = some 0b1000 ∧
    (run [(2, 0b1101101000)] (.velect 4 2 3)).map (·.gs 4) = some 0x81 ∧ (run [(2, 0b1101101000)] (.velectIdx 4 2)).map (·.gs 4) = some 3 ∧
    (run [(2, 0b1101101101)] (.vballot 4 2 0)).map (·.gs 4) = some 0x36D := by decide +kernel

/-- A block of one word in lockstep at an element width code, VL and mask, with registers; the wave after its step for every VP. -/
def stepAt (c : BitVec 2) (vl : Nat) (mask : BitVec 8192) (l : List (Nat × List U64)) (i : Instr) : Option Wave :=
  let w0 : Wave := { fetchWave with cfg := { fetchWave.cfg with ewc := c, vl := vl }
                                    masks := Vector.ofFn (fun k => if k.val = 0 then mask else 0)
                                    vregs := l.map (fun e => (e.1, { st := .live, tag := vl, elems := (e.2.zipIdx.filter (fun y => y.1 != 0)).map (fun y => (y.2, y.1)) })) }
  after i { s0 with w := w0.startRun .lockstep 0x200 0x47040000 [wordOf i] (List.range vl) (reservation [wordOf i] vl), agent := .lane 0 (List.range vl) }

/-- The first elements of a register, with the flags. -/
def elems (r n : Nat) (w : Wave) : List Nat × BitVec 5 := ((List.range n).map (fun j => ((w.reg r).elem j).toNat), w.cfg.fflags)

/-- VMAC.I, VMIN.IS, VSHR.A, VSHLI and VSEL of their entries. -/
theorem test_integer_element_examples :
    (stepAt 0 1 0 [(1, [20]), (2, [10]), (5, [100])] (.vmacI 0 5 0 1 2)).map (elems 5 1) = some ([44], 0) ∧
    (stepAt 0 1 0 [(2, [0xFF]), (3, [1])] (.vminIs 0 2 0 2 3)).map (elems 2 1) = some ([0xFF], 0) ∧
    (stepAt 0 1 0 [(2, [0xFF]), (3, [1])] (.vminI 0 2 0 2 3)).map (elems 2 1) = some ([1], 0) ∧
    (stepAt 1 1 0 [(2, [17]), (5, [0x8000])] (.vshrA 0 5 0 5 2)).map (elems 5 1) = some ([0xC000], 0) ∧
    (stepAt 0 1 0 [(2, [1])] (.vshli 0 2 0 2 0xFF)).map (elems 2 1) = some ([0x80], 0) ∧
    (stepAt 2 2 1 [(1, [1, 2]), (2, [3, 4])] (.vsel 4 0 1 2)).map (elems 4 2) = some ([1, 4], 0) := by decide +kernel

/-- VCOMPRESS, VPERM, VSCAN and VNZSCAN of their entries. -/
theorem test_cross_element_examples :
    (stepAt 2 8 0b10100110 [(1, [10, 11, 12, 13, 14, 15, 16, 17])] (.vcompress 1 2 1)).map (elems 2 8) = some ([11, 12, 15, 17, 0, 0, 0, 0], 0) ∧
    (stepAt 2 4 0 [(1, [10, 11, 12, 13]), (2, [3, 3, 0, 9])] (.vperm 0 4 0 1 2)).map (elems 4 4) = some ([13, 13, 10, 0], 0) ∧
    (stepAt 2 5 0b11011 [(1, [1, 2, 3, 4, 5]), (3, [0, 0, 99, 0, 0])] (.vscan 1 3 1 0)).map (elems 3 5) = some ([1, 3, 99, 7, 12], 0) := by decide +kernel

/-- VDIV.F32, VSQRT.F32, VEXP2, VADD.E8M7, VSUB.F16, VMAX.F16 and VCVT of their entries. -/
theorem test_float_element_examples :
    (stepAt 2 2 0 [(1, [0x3F800000, 0xBF800000]), (2, [0x40400000, 0])] (.vdivF32 0 5 0 1 2)).map (elems 5 2) = some ([0x3EAAAAAB, 0xFF800000], 0b01001) ∧
    (stepAt 2 1 0 [(1, [0x40000000])] (.vsqrtF32 0 2 0 1)).map (elems 2 1) = some ([0x3FB504F3], 0b00001) ∧
    (stepAt 2 2 0 [(1, [0x3F800000, 0xFF800000])] (.vexp2 0 3 0 1)).map (elems 3 2) = some ([0x40000000, 0], 0) ∧
    (stepAt 1 1 0 [(1, [0x0081]), (2, [0x8080])] (.vaddE8m7 0 3 0 1 2)).map (elems 3 1) = some ([0], 0b00011) ∧
    (stepAt 1 1 0 [(1, [0x7C00]), (2, [0x7C00])] (.vsubF16 0 3 0 1 2)).map (elems 3 1) = some ([0x7E00], 0b10000) ∧
    (stepAt 1 1 0 [(1, [0x0000]), (2, [0x8000])] (.vmaxF16 0 1 0 1 2)).map (elems 1 1) = some ([0], 0) ∧
    (stepAt 1 1 0 [(2, [0x00F1])] (.vcvt 0 3 0 2 0 11)).map (elems 3 1) = some ([0xFF80], 0) := by decide +kernel

/-- One word of each opcode class is fetched and run as the first instruction after reset. -/
theorem test_first_words_run :
    (∀ w ∈ [0x30000000, 0x01184400, 0x2220B010, 0x40A60000, 0x45000003, 0x53080102, 0x71040102, 0x90062000, 0xB2402080, 0xC0190A00],
      (match step (State.reset.withFetchWord 32 w) with | .next _ => true | _ => false) = true) ∧
    (match step (State.reset.withFetchWord 32 0x20280001) with | .next t => some (t.w.gs 5, t.w.pc) | _ => none) = some (1, 0x100004) := by
  decide +kernel

end Sys2Proof.Tests
end

section
/-! Number formats: the source specifier that broadcasts a scalar register (R104), the range of a magnitude rounded at its own
leading bit, and what rounding delivers on overflow (R113). -/

namespace Sys2Proof.Machine

/-! ### Scalar broadcast sources (R104) -/

/-- A specifier whose K is 1 and whose code is past the latches and the cross-element queue names a scalar register. -/
theorem Wave.operand_scalar (w : Wave) (b : BitVec 8) (v : Nat) (hk : bits b.toNat 6 1 = 1) (h : 0x48 ≤ b.toNat) :
    w.operand b v = (w.gs (BitVec.ofNat 5 (b.toNat - 0x48))).toNat % 2 ^ w.ew := by
  have h1 : ¬ b.toNat < 0x44 := by omega
  have h2 : b.toNat ≠ 0x44 := by omega
  simp only [Wave.operand, hk, if_neg h1, if_neg h2, Nat.one_ne_zero, if_false]

/-! ### Rounding -/

theorem roundAt_of_le (mode : RMode) (neg : Bool) (man : Nat) {exp q : Int} (h : q ≤ exp) :
    roundAt mode neg man exp q = (man * 2 ^ (exp - q).toNat, false) := if_pos h

/-- A rounded magnitude is its truncation or the next multiple. -/
theorem roundAt_of_lt (mode : RMode) (neg : Bool) (man : Nat) {exp q : Int} (h : exp < q) :
    (roundAt mode neg man exp q).1 = man / 2 ^ (q - exp).toNat ∨ (roundAt mode neg man exp q).1 = man / 2 ^ (q - exp).toNat + 1 := by
  simp only [roundAt, if_neg (Int.not_le.mpr h)]
  split
  · exact .inr rfl
  · exact .inl rfl

/-- Rounded to `p` places below its leading bit, a magnitude keeps its leading bit or carries into the next one. -/
theorem roundAt_leading (mode : RMode) (neg : Bool) {man : Nat} (exp : Int) (p : Nat) (hman : man ≠ 0) :
    2 ^ p ≤ (roundAt mode neg man exp (man.log2 + exp - p)).1 ∧ (roundAt mode neg man exp (man.log2 + exp - p)).1 ≤ 2 ^ (p + 1) := by
  have hlo : 2 ^ man.log2 ≤ man := Nat.log2_self_le hman
  have hhi : man < 2 ^ (man.log2 + 1) := Nat.lt_log2_self
  rcases Nat.lt_or_ge p man.log2 with hp | hp
  · obtain ⟨k, hk⟩ := Nat.exists_eq_add_of_lt hp
    have hd : (man.log2 + exp - p - exp).toNat = k + 1 := by omega
    have hq := roundAt_of_lt mode neg man (show exp < man.log2 + exp - p by omega)
    rw [hd] at hq
    have hnlo : 2 ^ p ≤ man / 2 ^ (k + 1) := by
      rwa [Nat.le_div_iff_mul_le (Nat.two_pow_pos _), ← Nat.pow_add, ← Nat.add_assoc, ← hk]
    have hnhi : man / 2 ^ (k + 1) < 2 ^ (p + 1) := by
      rwa [Nat.div_lt_iff_lt_mul (Nat.two_pow_pos _), ← Nat.pow_add, show p + 1 + (k + 1) = man.log2 + 1 by omega]
    omega
  · obtain ⟨k, rfl⟩ := Nat.exists_eq_add_of_le hp
    have hk : (exp - (man.log2 + exp - (man.log2 + k : Nat))).toNat = k := by omega
    rw [roundAt_of_le mode neg man (by omega), hk, Nat.pow_add, Nat.add_right_comm, Nat.pow_add 2 (man.log2 + 1)]
    exact ⟨Nat.mul_le_mul_right _ hlo, Nat.mul_le_mul_right _ (Nat.le_of_lt hhi)⟩

/-! ### Overflow (R113) -/

/-- With two or more exponent bits, the all-ones exponent is one more than twice the bias, and the bias is positive. -/
theorem Fmt.two_mul_bias (f : Fmt) (he : 2 ≤ f.ebits) : 2 * f.bias + 1 = 2 ^ f.ebits - 1 ∧ 1 ≤ f.bias := by
  obtain ⟨k, hk⟩ := Nat.exists_eq_add_of_le' he
  have := Nat.two_pow_pos k
  simp only [Fmt.bias, hk, show k + 2 - 1 = k + 1 by omega, Nat.pow_succ]
  omega

/-- A magnitude that, rounded without a bound on its exponent, reaches 2^(bias + 1) is delivered as an overflow with OF and NX. -/
theorem rnd_of_overflow (f : Fmt) (mode : RMode) (neg : Bool) {man : Nat} (exp : Int) (he : 2 ≤ f.ebits) (hman : man ≠ 0)
    (hov : (f.bias : Int) + 1 ≤ ((roundAt mode neg man exp (man.log2 + exp - f.fbits)).1.log2 : Int) + (man.log2 + exp - f.fbits)) :
    rnd f mode neg man exp = (overflowTo f mode neg, fOF ||| fNX) := by
  obtain ⟨hlo, hhi⟩ := roundAt_leading mode neg exp f.fbits hman
  obtain ⟨hbias, hpos⟩ := f.two_mul_bias he
  have hqmin : f.qmin = 1 - (f.bias : Int) - f.fbits := rfl
  generalize hu : (roundAt mode neg man exp (man.log2 + exp - f.fbits)).1 = u at hov hlo hhi
  have hu0 : u ≠ 0 := Nat.ne_of_gt (Nat.lt_of_lt_of_le (Nat.two_pow_pos f.fbits) hlo)
  have hlog : u.log2 ≤ f.fbits + 1 :=
    (Nat.pow_le_pow_iff_right Nat.one_lt_two).mp (Nat.le_trans (Nat.log2_self_le hu0) hhi)
  -- The exponent lies above the subnormals', so rounding with the exponent bounded is rounding without the bound.
  have hmax : max (man.log2 + exp - f.fbits) f.qmin = man.log2 + exp - f.fbits := Int.max_eq_left (by omega)
  have htiny : ¬ (u.log2 : Int) + (man.log2 + exp - f.fbits) < f.qmin + f.fbits := by omega
  have henc : f.inf ≤ (man.log2 + exp - f.fbits - f.qmin).toNat * 2 ^ f.fbits + u := by
    have hinf : f.inf = (2 * f.bias + 1) * 2 ^ f.fbits := by rw [hbias]; rfl
    rw [hinf]
    by_cases htop : (f.bias : Int) + 1 ≤ man.log2 + exp
    · have hexp : 2 * f.bias ≤ (man.log2 + exp - f.fbits - f.qmin).toNat := by omega
      have := Nat.mul_le_mul_right (2 ^ f.fbits) hexp
      rw [Nat.add_mul]
      omega
    · have hcarry : 2 ^ (f.fbits + 1) ≤ u := (Nat.le_log2 hu0).mp (by omega)
      have hexp : 2 * f.bias - 1 ≤ (man.log2 + exp - f.fbits - f.qmin).toNat := by omega
      have := Nat.mul_le_mul_right (2 ^ f.fbits) hexp
      rw [show 2 * f.bias + 1 = 2 * f.bias - 1 + 2 by omega, Nat.add_mul]
      omega
  simp only [rnd, if_neg hman, hmax, hu, htiny, decide_false, Bool.and_false, Bool.false_eq_true, if_false, if_pos henc]

/-- R113: RNE, and the directed mode toward the infinity of the value's sign, deliver that infinity. -/
theorem overflowTo_eq_inf (f : Fmt) {mode : RMode} {neg : Bool} (h : mode = 0 ∨ mode = 2 ∧ neg = true ∨ mode = 3 ∧ neg = false) :
    overflowTo f mode neg = f.sign neg + f.inf := by
  obtain rfl | ⟨rfl, rfl⟩ | ⟨rfl, rfl⟩ := h <;> simp [overflowTo, Fmt.sign]

/-- R113: RTZ, and the directed mode away from the infinity of the value's sign, deliver the largest finite number, encoded one below
that infinity. -/
theorem overflowTo_eq_largest (f : Fmt) {mode : RMode} {neg : Bool} (h : mode = 1 ∨ mode = 2 ∧ neg = false ∨ mode = 3 ∧ neg = true) :
    overflowTo f mode neg = f.sign neg + f.inf - 1 := by
  obtain rfl | ⟨rfl, rfl⟩ | ⟨rfl, rfl⟩ := h <;> simp [overflowTo, Fmt.sign]

/-- Settles O58: the overflow is recognised by `rnd_of_overflow`, and the table of R113 is `overflowTo`. -/
theorem overflowIsDelivered : Obligations.OverflowIsDelivered := by
  intro f mode neg man exp hf hman top u infinity overflows hov
  have he : 2 ≤ f.ebits := by
    simp only [List.mem_cons, List.not_mem_nil, or_false] at hf
    obtain rfl | rfl | rfl := hf <;> decide
  have hrnd := rnd_of_overflow f mode neg exp he hman hov
  constructor
  · intro h
    rw [hrnd, overflowTo_eq_inf f h]
    rfl
  · intro h
    rw [hrnd, overflowTo_eq_largest f h]
    rfl

/-- Settles O59: K = 1 and a code from 8 on is a specifier from 0x48 on. -/
theorem scalarBroadcastSources : Obligations.ScalarBroadcastSources := by
  intro w b v hk hlo _
  have hcode : b.toNat - 0x48 = b.toNat % 64 - 8 := by omega
  rw [w.operand_scalar b v (by unfold bits; omega) (by omega), hcode]

end Sys2Proof.Machine
end

section
/-! The instruction formats of direct branches: a word's opcode is [31:24] and its offset [23:0], and B and CALL go to the PC plus
four times the sign-extended offset (R299). -/

namespace Sys2Proof.Machine

open Sys2Proof.Spec

/-! ### The fields of a word -/

/-- A 24-bit field at the bottom of a word is the word cut to 24 bits. -/
theorem fd_setWidth (w : BitVec 32) : fd 24 w.toNat 0 = w.setWidth 24 :=
  BitVec.eq_of_toNat_eq (by simp [fd])

/-- A word in row 3_ of the opcode map is decoded there, by the low digit of its opcode (R318). -/
theorem decodeWord_row3 {w : Nat} (h : w / 2 ^ 28 = 3) : decodeWord w = decodeRow3 w := by
  have hrow : bits w 28 4 = 3 := by unfold bits; omega
  simp only [decodeWord, hrow]

/-- Opcode 0x31 is B (R299). -/
theorem instrOfWord_br {w : BitVec 32} (h : w.toNat / 2 ^ 24 = 0x31) : instrOfWord w = .br (w.setWidth 24) := by
  have hop : bits w.toNat 24 4 = 1 := by unfold bits; omega
  rw [instrOfWord, decodeWord_row3 (by omega)]
  simp only [decodeRow3, hop, fd_setWidth, Option.getD_some]

/-- Opcode 0x33 is CALL (R299). -/
theorem instrOfWord_call {w : BitVec 32} (h : w.toNat / 2 ^ 24 = 0x33) : instrOfWord w = .call (w.setWidth 24) := by
  have hop : bits w.toNat 24 4 = 3 := by unfold bits; omega
  rw [instrOfWord, decodeWord_row3 (by omega)]
  simp only [decodeRow3, hop, fd_setWidth, Option.getD_some]

/-- A word is its opcode above its low 24 bits. -/
theorem ofNat_opcode_add_setWidth (w : BitVec 32) : BitVec.ofNat 32 (w.toNat / 2 ^ 24 * 2 ^ 24 + (w.setWidth 24).toNat) = w := by
  rw [BitVec.toNat_setWidth, Nat.div_add_mod', BitVec.ofNat_toNat, BitVec.setWidth_eq]

/-! ### What B and CALL do -/

theorem exec_br_of_Issues {o : BitVec 24} {s : State} (h : Issues (.br o) {} s) :
    exec (.br o) s = .next (jumpTo (charged {} s) (target s.w.pc o.toInt)) := by
  have hexec : exec (.br o) s = execBr o s := rfl
  rw [hexec, execBr, issueControl_of_Issues _ h, charged_w, branchTo_target _ _ (by decide)]
  simp

theorem exec_call_of_Issues {o : BitVec 24} {s : State} (h : Issues (.call o) { deps := [31] } s) :
    exec (.call o) s = .next (jumpTo (setS (charged { deps := [31] } s) 31 (s.w.pc + 4)) (target s.w.pc o.toInt)) := by
  have hexec : exec (.call o) s = execCall o s := rfl
  rw [hexec, execCall, issueControl_of_Issues _ h, charged_w, branchTo_target _ _ (by decide)]
  simp

/-- A jump leaves a register that was written before it. -/
theorem writes_jumpTo {s t : State} {d : BitVec 5} {v : U64} (a : U64) (h : Writes s t d v) : Writes s (jumpTo t a) d v := h

/-- Settles O57: the opcode selects the row and the operand is the word's low 24 bits, so encoding puts the word together again; what the
two instructions do is `exec_br_of_Issues` and `exec_call_of_Issues`. -/
theorem branchAndCallWords : Obligations.BranchAndCallWords := by
  intro w s o
  have hword : BitVec.ofNat 32 (w.toNat / 2 ^ 24 * 2 ^ 24 + o.toNat) = w := ofNat_opcode_add_setWidth w
  refine ⟨BitVec.toInt_le, BitVec.le_toInt o, fun hop => ?_, fun hop => ?_⟩
  · rw [hop] at hword
    rw [instrOfWord_br hop]
    exact ⟨rfl, congrArg some hword, fun h => goesTo_of rfl rfl (exec_br_of_Issues h)⟩
  · rw [hop] at hword
    rw [instrOfWord_call hop]
    exact ⟨rfl, congrArg some hword, fun h =>
      ⟨_, exec_call_of_Issues h, writes_jumpTo _ (writes_setS_charged _ s 31 _), rfl⟩⟩

end Sys2Proof.Machine
end
